-- ==== Sys2Proof/Word.lean ====
section
/-!
DEFINITION. The machine words of the module (R4, R6): bytes, the register words of the control space, 64-bit unit
registers and fabric addresses, and the sparse tables that hold every numbered family of registers.
-/
namespace Sys2Proof

abbrev Byte := BitVec 8
abbrev U16 := BitVec 16
abbrev U32 := BitVec 32
abbrev U64 := BitVec 64

/-- A sparse table by natural-number key: the entries that differ from a default, keys strictly rising. -/
abbrev Tbl (α : Type) := List (Nat × α)

variable {α : Type}

/-- The entry listed under `i`, if any. -/
def tlook : Tbl α → Nat → Option α
  | [], _ => none
  | (k, v) :: r, i => if k = i then some v else tlook r i

/-- What the table holds at `k`: the listed entry, or the default `d`. -/
def tget (t : Tbl α) (d : α) (k : Nat) : α := (tlook t k).getD d

/-- List `v` under `k`, keeping the keys rising. -/
def tins : Tbl α → Nat → α → Tbl α
  | [], k, v => [(k, v)]
  | (j, w) :: r, k, v =>
    if k < j then (k, v) :: (j, w) :: r
    else if k = j then (k, v) :: r
    else (j, w) :: tins r k v

/-- Remove every entry under `k`. -/
def tdel (t : Tbl α) (k : Nat) : Tbl α := t.filter fun e => e.1 != k

/-- Store `v` at `k` in canonical form: storing the default removes the entry. -/
def tput [DecidableEq α] (t : Tbl α) (d : α) (k : Nat) (v : α) : Tbl α :=
  if v = d then tdel t k else tins t k v

/-- The keys of a table rise strictly. -/
abbrev TSorted (t : Tbl α) : Prop := t.Pairwise fun a b => a.1 < b.1

/-- The lowest natural number below `n` that `p` accepts, searched upward from `i`. -/
def firstFree (p : Nat → Bool) : Nat → Nat → Option Nat
  | 0, _ => none
  | n + 1, i => if p i then some i else firstFree p n (i + 1)

/-- A 64-bit two's complement word read as an integer. -/
def sint (x : U64) : Int := x.toInt

/-- Little-endian bytes of a natural number (R6: least significant byte first). -/
def leBytes : Nat → Nat → List Byte
  | 0, _ => []
  | n + 1, v => BitVec.ofNat 8 v :: leBytes n (v / 256)

/-- The number that little-endian bytes spell. -/
def leNat : List Byte → Nat
  | [] => 0
  | b :: r => b.toNat + 256 * leNat r

/-- The sum of a list. -/
def sumOf (l : List Nat) : Nat := l.foldl (· + ·) 0

/-- Add to a counter that stops at its largest value. -/
def satAdd {w : Nat} (x : BitVec w) (n : Nat) : BitVec w :=
  BitVec.ofNat w (min (x.toNat + n) (2 ^ w - 1))

end Sys2Proof
end

