-- ==== Sys2Proof/Machine/Num.lean ====
section
/-!
DEFINITION. The data types of the module's arithmetic (chapter 02 of spec/): number formats, rounding modes, exact
values, arithmetic events, seams.
-/
namespace Sys2Proof.Machine

/-- The seven floating-point formats of R27, in the order of the format codes of R82. -/
inductive Fmt where
  | f64 | f32 | f16 | bf16 | h8 | w8 | n4
deriving DecidableEq, Repr

/-- The rounding modes of R32. -/
inductive RMode where
  | nearest | zero | stoch
deriving DecidableEq, Repr

/-- An exact value: NaN, an infinity, or (-1)^s × m × 2^e; a zero keeps its sign. -/
inductive FVal where
  | nan
  | inf (s : Bool)
  | fin (s : Bool) (m : Nat) (e : Int)
deriving DecidableEq, Repr, Inhabited

/-- What round_to of R32 returns. -/
structure Rnd where
  s : Bool
  sig : Nat
  q : Int
  ovf : Bool
deriving DecidableEq, Repr

/-- An exact result before rounding: the value, whether nonzero bits below it were dropped, and whether the operation
was invalid with no NaN operand (NAN_GEN of R31). -/
structure FRes where
  v : FVal
  sticky : Bool
  gen : Bool
deriving DecidableEq, Repr, Inhabited

/-- Counts of the arithmetic events of R31, of first-use elements (R69) and of operand clamps (R153). -/
structure Ev where
  sat : Nat := 0
  nangen : Nat := 0
  wloss : Nat := 0
  sunder : Nat := 0
  ssat : Nat := 0
  first : Nat := 0
  clamp : Nat := 0
deriving DecidableEq, Repr

/-- A seam of R48 to R51: V in 384 bits, the five flags, and the 48-bit count. -/
structure Seam where
  v : BitVec 384
  nan : Bool
  pinf : Bool
  ninf : Bool
  sat : Bool
  under : Bool
  count : BitVec 48
deriving DecidableEq, Repr

/-- One array pass of R44 to R46: its outcome before it is rounded or delivered to a seam. -/
inductive PassOut where
  /-- case 1 of R46; `gen` when no operand was NaN -/
  | nan (gen : Bool)
  /-- case 2 of R46 -/
  | inf (s : Bool)
  /-- cases 3 and 4: window, floor, sticky, and whether every addend was a zero with its sign bit set -/
  | win (w : Int) (floor : Int) (sticky : Bool) (negZero : Bool)
deriving DecidableEq, Repr

end Sys2Proof.Machine
end

