-- ==== Sys2Proof/Machine/Types.lean ====
section
/-!
DEFINITION. The data types of the units, the contexts, the memory controllers and the fabric (chapters 01, 05 to 07, 10,
11, 14, 15 of spec/).
-/
namespace Sys2Proof.Machine

/-- The units that execute Gaxus (R133), by logical tile number or region. -/
inductive UnitId where
  | tile (t : Fin 1152)
  | reckoner (r : Fin 12)
  | derrick (r : Fin 12)
  | engine (r : Fin 12)
deriving DecidableEq, Repr

/-- What an instruction that has issued and not retired waits for. -/
inductive WaitKind where
  /-- WAITC, on its counter word (R197) -/
  | counter
  /-- FENCE, until its scope has completed (R198) -/
  | scope
  /-- STEPEND, until the step closes (R204) -/
  | stepEnd
  /-- DNEXT, until a round may start (R261) -/
  | round
  /-- remote reads of the access are open; the word executes when they have completed (R26, R168) -/
  | fetch
  /-- remote writes of the access are open; the instruction retires when they have completed (R26, R168) -/
  | drain
  /-- room in a queue at issue (R192, R199, R200) -/
  | room
deriving DecidableEq, Repr

/-- The run state of a unit within a context. -/
inductive RunSt where
  | halted
  | running
  | waiting (k : WaitKind) (word : U64)
deriving DecidableEq, Repr

/-- The context event counters of a unit (R132, R256, R386): 64 bits each. -/
structure Cnt where
  sat : U64 := 0
  nangen : U64 := 0
  wloss : U64 := 0
  sunder : U64 := 0
  ssat : U64 := 0
  first : U64 := 0
  clamp : U64 := 0
  refuse : U64 := 0
  nonfin : U64 := 0
  skip : U64 := 0
  dsat : U64 := 0
  pivot : U64 := 0
  solve : U64 := 0
deriving DecidableEq, Repr

/-- What a request does at its target (R192, R195, R302). -/
inductive ReqOp where
  | put (data : List Byte)
  | get (len : Nat)
  | signal (inc : U64)
  | take
  /-- RADD: kind 0 to 6, source format code and scale exponent of kind 5, the source elements' bytes, element count -/
  | radd (kind fmt : Nat) (k : Int) (count : Nat) (data : List Byte)
deriving DecidableEq, Repr

/-- One request of R192: at most 256 bytes, within one 256-byte line. -/
structure Request where
  src : BitVec 15
  tag : BitVec 16
  epoch : U32
  addr : U64
  op : ReqOp
deriving DecidableEq, Repr

/-- One response; `status` is a code of R294. -/
structure Response where
  dst : BitVec 15
  src : BitVec 15
  tag : BitVec 16
  epoch : U32
  status : Nat
  data : List Byte
deriving DecidableEq, Repr

/-- What an operation does when all its requests have completed (R194). -/
inductive OpEnd where
  | plain
  /-- GET: data lands at a local address; then 1 is added to the counter, if one is named -/
  | get (counter : Option U64)
  /-- PUTS: the signal leaves when the data requests have completed -/
  | signal (counter inc : U64)
  /-- data for the unit's own waiting access -/
  | access
  /-- data for the staging area, by memory key (R99) -/
  | stage
deriving DecidableEq, Repr

/-- A remote operation of a unit (R192): pieces not yet sent, with the local address a GET piece fills. -/
structure RemOp where
  id : Nat
  fin : OpEnd
  unsent : List (U64 × ReqOp × U64)
  outstanding : Nat
  /-- of a collective request that has ended: its refusals are no other request's (R335) -/
  ended : Bool := false
deriving DecidableEq, Repr

/-- An open request, by tag: the unit and context that issued it, its operation, the local address its data fills. -/
structure OpenReq where
  unit : Nat
  ctx : Nat
  op : Nat
  fill : U64
  req : Request
deriving DecidableEq, Repr

/-- An open tally entry (R190): the clamped descriptor, use count, uses received, and the entry seams that are not
empty by element number. -/
structure TieEntry where
  td : BitVec 256
  want : Nat
  got : Nat
  count : Nat
  seams : Tbl Seam
deriving DecidableEq, Repr

/-- One action of PERMUTE (R342, R345): write the progress record for a move, with its state, leader, destination and
source; write it at a cycle's end or at the end, with its state alone; or copy a unit, where none is the save area. Both
records name the cycles completed. -/
inductive PermAct where
  | record (st leader dst src : Nat) (cycles : Nat)
  | close (st cycles : Nat)
  | copy (dst src : Option Nat)
deriving DecidableEq, Repr

/-- A collective request as the engine copied it (R199). -/
structure CollReq where
  seq : Nat
  kind : Nat
  counter : U64
  args : List U64
  /-- the stage a started request has reached; 0 is not started -/
  stage : Nat
  /-- the member or the byte offset the stage stands at -/
  idx : Nat := 0
  /-- a wait was not met or an operation was refused (R335) -/
  failed : Bool := false
  /-- PERMUTE: the actions not yet done (R342) -/
  todo : List PermAct := []
  /-- the request block's 64 bytes -/
  block : List Byte := []
  /-- PERMUTE: the progress record's leader and named move, counts of moves and cycles, sum and direction -/
  lead : Nat := 0
  dst : Nat := 0
  src : Nat := 0
  moves : Nat := 0
  cycles : Nat := 0
  sum : U64 := 0
  back : Bool := false
deriving DecidableEq, Repr

/-- The state of one unit in one context (R134, R136, R151): saved and restored with the context. -/
structure UnitImg where
  s : Vector U64 32 := Vector.replicate 32 0
  f : Vector U64 32 := Vector.replicate 32 0
  v : Vector (BitVec 128) 32 := Vector.replicate 32 0
  vl : BitVec 8 := 0
  t : Vector (BitVec 256) 16 := Vector.replicate 16 0
  pc : U64 := 0
  handler : Bool := false
  xvec : U64 := 0
  xpc : U64 := 0
  xcause : BitVec 4 := 0
  xaddr : U64 := 0
  xinst : U64 := 0
  run : RunSt := .halted
  /-- started by its context at its entry (R162), for STEPEND's participation (R204) -/
  started : Bool := false
  /-- runs a built-in program (R162) -/
  builtin : Bool := false
  cnt : Cnt := {}
  /-- remote operations in the unit's port (R192) -/
  ops : List RemOp := []
  /-- refusals not yet reported by a FENCE, by target module (R198) -/
  refus : Tbl Nat := []
  /-- bytes that remote reads of the waiting access have returned, by fabric address (R26) -/
  rbuf : Tbl Byte := []
  /-- a remote read of the waiting access was refused (R142) -/
  rbad : Bool := false
  /-- open tally handles (R190) -/
  ties : Tbl TieEntry := []
  /-- submissions made to each Derrick (R200) -/
  subs : Tbl Nat := []
  /-- sequence number of the next COLL request this engine takes (R199) -/
  collSeq : Nat := 0
  /-- COLL requests not completed (R199) -/
  colls : List CollReq := []
  /-- writes of CTX.SEED by this unit (R152) -/
  seeds : Nat := 0
  /-- return address an engine program was called with (R336) -/
  ret : Option U64 := none
deriving DecidableEq, Repr

/-- Why a context does not run (R533). -/
inductive CtxSt where
  | created
  | runnable
  | drained
  /-- halted at a checkpoint, a replay difference, a pair check or a fleet test trigger -/
  | haltedStep
  /-- halted by a fault or the step limit -/
  | haltedFault
  | reset
deriving DecidableEq, Repr

/-- A unit of the ledger stream that the ring holds until the host acknowledges it (R400). -/
structure RingUnit where
  seq : Nat
  /-- 0 record, 1 annex, 2 difference report (R415) -/
  kind : Nat
  bytes : List Byte
deriving DecidableEq, Repr

/-- Where STEPEND of a context stands after its record (R400, R406, R413). -/
inductive ClosePhase where
  | none
  /-- the ring lacks room for the step's units -/
  | ringWait
  /-- replay mode waits for the reference record of the step -/
  | refWait
  /-- the pair message is sent and the partner's has not been compared -/
  | pairWait
  /-- the pair check failed: STEPEND does not retire (R413, R414) -/
  | pairFailed
deriving DecidableEq, Repr

/-- A resident context (R151, R426, R533). -/
structure Ctx where
  st : CtxSt := .created
  replay : Bool := false
  confidential : Bool := false
  restored : Bool := false
  pages : List Nat := []
  epoch : U32 := 0
  limitMs : Nat := 0
  session : Nat := 0
  image : U64 := 0
  imgSize : Nat := 0
  entries : List Nat := [0, 0, 0, 0]
  loaded : Bool := false
  step : BitVec 48 := 0
  seed : U64 := 0
  seedSet : Bool := false
  /-- seeds written in this step, by the writer's SYS.UNIT (R152) -/
  seedPend : Tbl U64 := []
  /-- program fields written in this step (R203): lowest tile that wrote it, value -/
  lgf : Tbl (Nat × U64) := []
  /-- clamps STEPEND itself counts (R204, R396) -/
  stepClamps : Nat := 0
  /-- LR.SEQ of the next record -/
  seq : Nat := 0
  ring : List RingUnit := []
  scaleDigest : BitVec 128 := 0
  weightDigest : BitVec 128 := 0
  /-- digest contributions of each shard record written in the step, by region × 2^32 + list index: words, digest -/
  shardDigest : Tbl (Nat × BitVec 128) := []
  norm : U64 := 0
  clip : U64 := 0x3FF0000000000000
  normSkip : Bool := false
  ckStep : Option Nat := none
  /-- pair checks begun (R413) -/
  pairQ : Nat := 0
  /-- the record of a step that waits in a pair check (R413), as it was written -/
  record : List Byte := []
  phase : ClosePhase := .none
  /-- context memory key and spill reservation are part of the pages; the owner bound by KEY_LOAD kind 0x01 (R468) -/
  ownerKey : Option (List Byte) := none
  boundDigest : Option (List Byte) := none
  ledgerKey : List Byte := []
  ckptKey : List Byte := []
  memKey : List Byte := []
deriving DecidableEq, Repr

/-- A slice product as a faulty cell forms it (R113): the array block it belongs to, the cell's row, the slices and the
product. -/
structure SliceErr where
  block : Nat
  row : Nat
  a : Int
  b : Int
  m : Int
deriving DecidableEq, Repr

/-- The hardware of one logical tile that outlives contexts (R105, R119, R131). [DESIGN CHOICE, log 11] -/
structure TileHw where
  faulted : Bool := false
  selfTest : Bool := false
  retire : Bool := false
  halt : Bool := true
  faultCause : BitVec 4 := 0
  faultBank : BitVec 5 := 0
  faultPc : U64 := 0
  /-- FAULT_PC is that of a confidential context (R469) -/
  faultConf : Bool := false
  svuDown : Bool := true
  svuIdle : Nat := 0
  gate : Bool := true
  svuHold : Bool := false
  scrub : Bool := true
  residueRetry : U32 := 0
  sramCorr : U32 := 0
  bufCorr : U32 := 0
  uncorr : U32 := 0
  gateWake : U32 := 0
  svuWake : U32 := 0
  scrubPass : U32 := 0
  poolSpill : U32 := 0
  scrubPos : Nat := 0
  /-- slice products that the array's cells form wrongly in coming array instructions (R113, R114), in their order:
  physical faults, the model's own field -/
  sliceErrs : List SliceErr := []
  /-- physical errors of code words that the next read of the tally buffer and of the Porter meets (R104): the model's
  own fields -/
  tallyErrs : List (BitVec 144) := []
  porterErrs : List (BitVec 144) := []
deriving DecidableEq, Repr

/-- One way of an accumulation-cache set (R278). -/
structure CacheEntry where
  slot : Nat
  ctx : Nat
  dirty : Bool
  /-- order of last use -/
  used : Nat
  /-- what the stack holds at the slot: a changed entry that is discarded leaves it (R278) -/
  stack : List Byte
deriving DecidableEq, Repr

/-- A memory controller (R281, R287). -/
structure Mc where
  /-- MC_STATE.STACK -/
  stack : BitVec 2 := 0
  selfRefresh : Bool := false
  band : BitVec 3 := 0
  fault : Bool := false
  b75 : BitVec 3 := 3
  b50 : BitVec 3 := 4
  b25 : BitVec 3 := 5
  level : BitVec 2 := 0
  idle : U16 := 100
  scrubEn : Bool := true
  scrubInt : U16 := 32
  spare : U32 := 0xFFFFFFFF
  laneSpared : BitVec 8 := 0
  corr : U32 := 0
  uncorr : U32 := 0
  scrubPass : U32 := 0
  cacheMiss : U32 := 0
  cacheWb : U32 := 0
  throttle : U32 := 0
  srEntry : U32 := 0
  narrow : U32 := 0
  /-- narrow accesses below one unit of MC_NARROW -/
  narrowLow : Nat := 0
  rmw : U32 := 0
  nangen : Tbl U64 := []
  /-- cached slots by set × 16 + way -/
  cache : Tbl CacheEntry := []
  cacheClock : Nat := 0
  scrubLine : Nat := 0
deriving DecidableEq, Repr

/-- The capacity-tier controller (R286, R288). -/
structure Ct where
  throttled : U16 := 0
  corr : U32 := 0
  uncorr : U32 := 0
  rmw : U32 := 0
  scrubPass : U32 := 0
  scrubLine : Nat := 0
  nangen : Tbl U64 := []
deriving DecidableEq, Repr

/-- The fabric's chip-level state (R291, R299, R317, R326). -/
structure Fab where
  fenced : Bool := false
  timeout : U32 := 50000
  staleIn : U32 := 0
  earlyIn : U32 := 0
  staleOut : U32 := 0
  prot : U32 := 0
  fencedIn : U32 := 0
  noroute : U32 := 0
  timeoutCnt : U32 := 0
  late : U32 := 0
  heldDrop : U32 := 0
  unreach : U32 := 0
  /-- open requests by tag -/
  reqs : Tbl OpenReq := []
  /-- quarantined tags (R297), with the unit that holds them -/
  quarantine : Tbl Nat := []
  /-- request ports held by PREPARE (R358) -/
  portsHeld : Bool := false
  /-- requests held for tile windows of contexts that do not run (R26) -/
  held : List Request := []
  /-- the route table: coordinates of each module number that has a place (R317) -/
  route : Tbl U32 := []
deriving DecidableEq, Repr

/-- The geometry table's fields that vary (R20). -/
structure Geo where
  generation : U32 := 0
  own : BitVec 15 := 0
  extent : U32 := 0x01010101
  coord : U32 := 0
  regions : BitVec 12 := 0
  stackMask : BitVec 12 := 0
  tiles : List Nat := List.replicate 12 0
  stackSlow : BitVec 12 := 0
  capBuses : U16 := 0
  links : U32 := 0
  derricks : BitVec 12 := 0
  houseSize : BitVec 8 := 1
  remap : Bool := false
  keeper : BitVec 15 := 0
  dirLinks : List U32 := List.replicate 8 0
  fwDigest : List Byte := []
deriving DecidableEq, Repr

/-- An event of R434 before it is framed: kind, context (0xFF for the module), body words in the order of the table. -/
structure Event where
  kind : Nat
  ctx : Nat
  body : List U64
  /-- the body's bytes where the specification lays them out: the report of R409 -/
  raw : List Byte := []
deriving DecidableEq, Repr

/-- Where a transport frame came from and which of the module's addresses and ports it named: the module answers from the
one to the other (R420). -/
structure HostAddr where
  v4 : Bool
  mac : BitVec 48
  addr : BitVec 128
  port : U16
  own : BitVec 128
  ownPort : U16
deriving DecidableEq, Repr

/-- What the module sends: the model's log of its outputs, newest last. -/
inductive Out where
  | event (session : Nat) (number : Nat) (lost : Nat) (e : Event)
  | reply (session : Nat) (op status : Nat) (id : U64) (detail : U64) (data : List Byte)
  /-- a frame of a session, to the host's address where the port knows it (R420) -/
  | frame (session : Nat) (channel : Nat) (to_ : Option HostAddr) (data : List Byte)
  /-- a frame in clear: of an agreement or a member's relayed one to the host's address, or a whole Ethernet frame -/
  | clear (to_ : Option HostAddr) (data : List Byte)
  /-- a flit on the nine lanes of a link, in PAM4 unit intervals (R306) -/
  | flit (link : Nat) (seq : Nat) (lanes : List (List (BitVec 2)))
  /-- the flit of a sequence number again, byte-identical (R309) -/
  | replay (link : Nat) (seq : Nat)
  /-- what the debug connector's ports shift out -/
  | scan (data : List Byte)
deriving DecidableEq, Repr

/-- The role of a session (R463). -/
inductive Role where
  | opened
  | operator
  | owner
deriving DecidableEq, Repr

/-- A frame the module has sent: a resend is byte-identical, HT.ACK included (R462). -/
structure Sent where
  seq : Nat
  ack : Nat
  payload : List Byte
deriving DecidableEq, Repr

/-- One direction pair of a session channel (R430): go-back-N in both directions. -/
structure Chan where
  rxNext : Nat := 0
  txNext : Nat := 0
  /-- frames sent and not acknowledged, oldest first -/
  unacked : List Sent := []
  /-- payloads that wait for room among the 4 096 unacknowledged frames -/
  backlog : List (List Byte) := []
  /-- frames accepted since the last acknowledgement the module sent -/
  ackDue : Nat := 0
deriving DecidableEq, Repr

/-- A response as it is kept (R425). -/
structure Reply where
  op : Nat
  status : Nat
  id : U64
  detail : U64
  data : List Byte
deriving DecidableEq, Repr

/-- An event sent and not yet delivered: its number, the events lost before it, and HT.ACK of its frame. -/
structure EventSent where
  no : Nat
  lost : Nat
  ack : Nat
  event : Event
deriving DecidableEq, Repr

/-- An open session (R423). -/
structure Session where
  role : Role := .opened
  /-- the public key the session was agreed with -/
  peer : List Byte := []
  chan : List Chan := [{}, {}, {}]
  kept : List Reply := []
  /-- undelivered events (R434) -/
  events : List EventSent := []
  lost : Nat := 0
  /-- the session secret Z, of which every key of the session is a function (R462) -/
  z : List Byte := []
  /-- where the session's last accepted frame came from; none where the keeper relayed it (R420, R435) -/
  addr : Option HostAddr := none
deriving DecidableEq, Repr

/-- What every register block holds (R438), its shadows (R442) and its pending pair half (R444). -/
structure BlkCommon where
  group : BitVec 4 := 0
  join : Bool := false
  clamps : U32 := 0
  /-- shadowed registers written since the last application, by offset -/
  shadow : Tbl U32 := []
  pending : Bool := false
  /-- pair half pending: offset, value, writes the block may still accept -/
  pair : Option (Nat × U32 × Nat) := none
deriving DecidableEq, Repr

end Sys2Proof.Machine
end

