-- ==== Sys2Proof/Machine/Inputs.lean ====
section
/-!
DEFINITION. What commands carry from outside: the operands of the rows of the opcode table that are more than a number.
-/
namespace Sys2Proof.Machine

/-- Operand bits [51:0] of an instruction word (R137). [DESIGN CHOICE, log 4] -/
abbrev Ops := BitVec 52

/-- What the other end sends in KEY: certificate, report, its share (encapsulation key of the lower end, or ciphertext of
the higher), its signature over the ciphertext, and the bodies of the exchange's messages. -/
structure KeyPeer where
  cert : List Byte
  report : List Byte
  share : List Byte
  sig : List Byte
  offer : List Byte
  transcript : List Byte
  /-- the exchange belongs to a readmission (R360) -/
  readmit : Bool
deriving DecidableEq, Repr

/-- What the port finds at its cage: nothing, a partner still training, or a partner, with the speeds of both and a
pluggable whose power class the cage supplies or not. -/
structure EtherPeer where
  signal : Bool
  trained : Bool
  partnerFast : Bool
  plugFast : Bool
  plugPowered : Bool
deriving DecidableEq, Repr

/-- A command as an accepted control frame carries it (R424): the session, the fields of the header, the parameters and
the KMAC check of a critical command. -/
structure Cmd where
  session : Nat
  flags : U16
  len : Nat
  id : U64
  counter : U64
  target : Nat
  params : List Byte
  check : List Byte
deriving DecidableEq, Repr

/-- What the tests of one stack's lanes show (R272): the lanes that fail at 12 Gb/s, and again at 8 Gb/s, as channel 0 to
131 and lane: 0 to 15 data, 16 and 17 check, 18 spare, 19 clock, 20 command. [DESIGN CHOICE, log 101] -/
structure StackTrain where
  bad12 : List (Nat × Nat)
  bad8 : List (Nat × Nat)
deriving DecidableEq, Repr

/-- The lanes of a link on which this end sees signal, and the other end (R313). -/
structure LinkSignal where
  here : BitVec 9
  there : BitVec 9
deriving DecidableEq, Repr

/-- A failure that a run's patterns find: the part of a signature record that the unit under test gives (R505). -/
structure BoreFail where
  unit : List Int
  pattern : List Nat
  cells : List (Nat × Nat × List Byte × List Byte)
  total : Nat
  conditions : List Int
  outcome : Nat
  /-- the cause of the fault that the pattern raised, where the outcome is 1 (R502) -/
  cause : Nat
deriving DecidableEq, Repr

/-- What the steps of an itinerary meet: rails and reference, the cells and the root's tests, GA[5:0], the image that
network recovery fetches, the training of stacks and buses, the self-test, the cage, and the time taken. -/
structure ItinIn where
  railsOk : Bool
  refOk : Bool
  cellsOk : Bool
  rootOk : Bool
  ga : BitVec 6
  fetched : Option (List Byte)
  training : List StackTrain
  /-- failing pins of the capacity buses (R285), as bus and pin: 0 to 127 data, 128 to 143 check, 144 spare, above it
  clock and command -/
  pins : List (Nat × Nat)
  /-- failing tiles of each region -/
  tiles : List Nat
  derricks : BitVec 12
  /-- regions whose Reckoner and engine pass -/
  regions : BitVec 12
  /-- what the self-test's patterns find (R504, R505) -/
  fails : List BoreFail
  ether : EtherPeer
  ms : U32
deriving DecidableEq, Repr

/-- What the debug port does. -/
inductive DebugOp where
  | regRead (l : Nat)
  | regWrite (l : Nat) (v : U32)
  | memRead (l n : Nat)
  | memWrite (l : Nat) (x : List Byte)
  | halt (u : UnitId) (x : Bool)
  | step (u : UnitId)
deriving DecidableEq, Repr

end Sys2Proof.Machine
end

