-- ==== Sys2Proof/Syntax.lean ====
section
/-!
DEFINITION. The commands of the module: one constructor per row of spec/opcode_table.json, with the row's operands. An
instruction of a unit names the unit that executes it and operand bits [51:0] of its word; a house message names the
sending module; other rows name the link, region, tile, session or register they are about, and what the outside brings.
-/
namespace Sys2Proof

open Machine

/-- A command waiting in the queue. -/
inductive Instr where
  /-- ADD (R140). -/
  | add (u : UnitId) (o : Ops)
  /-- SUB (R140). -/
  | sub (u : UnitId) (o : Ops)
  /-- MUL (R141). -/
  | mul (u : UnitId) (o : Ops)
  /-- DIV (R141). -/
  | div (u : UnitId) (o : Ops)
  /-- AND (R140). -/
  | and (u : UnitId) (o : Ops)
  /-- OR (R140). -/
  | or (u : UnitId) (o : Ops)
  /-- XOR (R140). -/
  | xor (u : UnitId) (o : Ops)
  /-- SHL (R140). -/
  | shl (u : UnitId) (o : Ops)
  /-- SHR (R140). -/
  | shr (u : UnitId) (o : Ops)
  /-- SRA (R140). -/
  | sra (u : UnitId) (o : Ops)
  /-- ADDI (R140). -/
  | addi (u : UnitId) (o : Ops)
  /-- LD (R142). -/
  | ld (u : UnitId) (o : Ops)
  /-- ST (R142). -/
  | st (u : UnitId) (o : Ops)
  /-- BEQ (R143). -/
  | beq (u : UnitId) (o : Ops)
  /-- BNE (R143). -/
  | bne (u : UnitId) (o : Ops)
  /-- BLT (R143). -/
  | blt (u : UnitId) (o : Ops)
  /-- BGE (R143). -/
  | bge (u : UnitId) (o : Ops)
  /-- JAL (R143). -/
  | jal (u : UnitId) (o : Ops)
  /-- JALR (R143). -/
  | jalr (u : UnitId) (o : Ops)
  /-- FADD (R144). -/
  | fadd (u : UnitId) (o : Ops)
  /-- FSUB (R144). -/
  | fsub (u : UnitId) (o : Ops)
  /-- FMUL (R144). -/
  | fmul (u : UnitId) (o : Ops)
  /-- FDIV (R144). -/
  | fdiv (u : UnitId) (o : Ops)
  /-- FSQRT (R144). -/
  | fsqrt (u : UnitId) (o : Ops)
  /-- FMA (R144). -/
  | fma (u : UnitId) (o : Ops)
  /-- FMIN (R37). -/
  | fmin (u : UnitId) (o : Ops)
  /-- FMAX (R37). -/
  | fmax (u : UnitId) (o : Ops)
  /-- FCVT (R145). -/
  | fcvt (u : UnitId) (o : Ops)
  /-- SYSR (R151). -/
  | sysr (u : UnitId) (o : Ops)
  /-- SYSW (R151). -/
  | sysw (u : UnitId) (o : Ops)
  /-- SYSW_XRET (R157). -/
  | syswXret (u : UnitId) (o : Ops)
  /-- VSETVL (R147). -/
  | vsetvl (u : UnitId) (o : Ops)
  /-- VLD (R148). -/
  | vld (u : UnitId) (o : Ops)
  /-- VST (R148). -/
  | vst (u : UnitId) (o : Ops)
  /-- VADD (R149). -/
  | vadd (u : UnitId) (o : Ops)
  /-- VMUL (R149). -/
  | vmul (u : UnitId) (o : Ops)
  /-- VFMA (R149). -/
  | vfma (u : UnitId) (o : Ops)
  /-- VMIN (R149). -/
  | vmin (u : UnitId) (o : Ops)
  /-- VMAX (R149). -/
  | vmax (u : UnitId) (o : Ops)
  /-- VRED (R150). -/
  | vred (u : UnitId) (o : Ops)
  /-- MMA (R173). -/
  | mma (u : UnitId) (o : Ops)
  /-- CVT (R59). -/
  | cvt (u : UnitId) (o : Ops)
  /-- CVT_ROLL (R66). -/
  | cvtRoll (u : UnitId) (o : Ops)
  /-- EWU (R178). -/
  | ewu (u : UnitId) (o : Ops)
  /-- EWB (R180). -/
  | ewb (u : UnitId) (o : Ops)
  /-- TRED (R181). -/
  | tred (u : UnitId) (o : Ops)
  /-- MSKP (R184). -/
  | mskp (u : UnitId) (o : Ops)
  /-- MSKX (R185). -/
  | mskx (u : UnitId) (o : Ops)
  /-- TXP (R95). -/
  | txp (u : UnitId) (o : Ops)
  /-- MOVB (R94). -/
  | movb (u : UnitId) (o : Ops)
  /-- GTH (R89). -/
  | gth (u : UnitId) (o : Ops)
  /-- SCT (R90). -/
  | sct (u : UnitId) (o : Ops)
  /-- SCTA (R91). -/
  | scta (u : UnitId) (o : Ops)
  /-- HPUSH (R188). -/
  | hpush (u : UnitId) (o : Ops)
  /-- HPOP (R189). -/
  | hpop (u : UnitId) (o : Ops)
  /-- TIE_OPEN (R190). -/
  | tieOpen (u : UnitId) (o : Ops)
  /-- TIE_ADD (R190). -/
  | tieAdd (u : UnitId) (o : Ops)
  /-- TIEX (R191). -/
  | tiex (u : UnitId) (o : Ops)
  /-- PUT (R194). -/
  | put (u : UnitId) (o : Ops)
  /-- GET (R194). -/
  | get (u : UnitId) (o : Ops)
  /-- RADD (R195). -/
  | radd (u : UnitId) (o : Ops)
  /-- PUTS (R194). -/
  | puts (u : UnitId) (o : Ops)
  /-- WAITC (R197). -/
  | waitc (u : UnitId) (o : Ops)
  /-- WAITC_TIMEOUT (R127). -/
  | waitcTimeout (u : UnitId)
  /-- TILE_WAKE (R126). -/
  | tileWake (u : UnitId)
  /-- FENCE (R198). -/
  | fence (u : UnitId) (o : Ops)
  /-- COLL (R199). -/
  | coll (u : UnitId) (o : Ops)
  /-- DSUB (R200). -/
  | dsub (u : UnitId) (o : Ops)
  /-- DPOLL (R202). -/
  | dpoll (u : UnitId) (o : Ops)
  /-- LGF (R203). -/
  | lgf (u : UnitId) (o : Ops)
  /-- STEPEND (R204). -/
  | stepend (u : UnitId) (o : Ops)
  /-- STEP_CLOSE (R204). -/
  | stepClose
  /-- PAIR_CHECK (R414). -/
  | pairCheck
  /-- STEP_LIMIT_EXPIRY (R426). -/
  | stepLimitExpiry
  /-- LEDGER_RING_WAIT_END (R400). -/
  | ledgerRingWaitEnd
  /-- DNEXT (R261). -/
  | dnext (u : UnitId) (o : Ops)
  /-- DNEXT_TIMEOUT (R261). -/
  | dnextTimeout (u : UnitId)
  /-- DAPPLY (R243). -/
  | dapply (u : UnitId) (o : Ops)
  /-- DPREP (R247). -/
  | dprep (u : UnitId) (o : Ops)
  /-- DITER (R248). -/
  | diter (u : UnitId) (o : Ops)
  /-- DFIN (R250). -/
  | dfin (u : UnitId) (o : Ops) (elapsed : Nat)
  /-- DSTAT (R261). -/
  | dstat (u : UnitId) (o : Ops) (elapsed : Nat)
  /-- BATCH_ENQUEUE (R200). -/
  | batchEnqueue (k : Fin 12)
  /-- UPD_NORM_PARTIAL (R376). -/
  | updNormPartial (u : UnitId) (o : Ops)
  /-- UPD_NORM_TOTAL (R378). -/
  | updNormTotal (u : UnitId) (o : Ops)
  /-- UPD_ADAM (R372). -/
  | updAdam (u : UnitId) (o : Ops)
  /-- UPD_ADAMW (R372). -/
  | updAdamw (u : UnitId) (o : Ops)
  /-- UPD_SGDM (R372). -/
  | updSgdm (u : UnitId) (o : Ops)
  /-- COLL_ENGINE_PROGRAM (R336). -/
  | collEngineProgram (k : Fin 12)
  /-- ALL_GATHER (R337). -/
  | allGather (k : Fin 12)
  /-- REDUCE_SCATTER (R338). -/
  | reduceScatter (k : Fin 12)
  /-- BROADCAST (R339). -/
  | broadcast (k : Fin 12)
  /-- PERMUTE (R342). -/
  | permute (k : Fin 12)
  /-- COLL_UNDEFINED_KIND (R199). -/
  | collUndefinedKind (k : Fin 12)
  /-- COLL_WAIT_TIMEOUT (R335). -/
  | collWaitTimeout (k : Fin 12)
  /-- REQUEST_ARRIVAL (R293). -/
  | requestArrival (r : Request)
  /-- RESPONSE_ARRIVAL (R295). -/
  | responseArrival (r : Response)
  /-- REQUEST_TIMEOUT (R297). -/
  | requestTimeout (t : BitVec 16)
  /-- TAG_QUARANTINE_END (R297). -/
  | tagQuarantineEnd (t : BitVec 16)
  /-- FLIT_RECEIVE (R309). -/
  | flitReceive (k : Fin 32) (lanes : List (List (BitVec 2)))
  /-- LINK_CONTROL_FLIT (R308). -/
  | linkControlFlit (k : Fin 32) (ack : U64) (nak : Option U64) (flags : Byte) (credits : List Nat)
  /-- LINK_CONTROL_INTERVAL (R308). -/
  | linkControlInterval (k : Fin 32)
  /-- FLIT_SWITCH_DISCARD (R311). -/
  | flitSwitchDiscard (k : Fin 32) (j : Nat)
  /-- LINK_RETRAIN (R310). -/
  | linkRetrain (k : Fin 32) (cause : Nat)
  /-- LINK_DETECT (R313). -/
  | linkDetect (k : Fin 32) (lanes : LinkSignal)
  /-- LINK_EQUALIZE (R313). -/
  | linkEqualize (k : Fin 32)
  /-- LINK_TEST (R315). -/
  | linkTest (k : Fin 32) (errs : List Nat)
  /-- LINK_ALIGN (R313). -/
  | linkAlign (k : Fin 32)
  /-- LINK_IDENT (R312). -/
  | linkIdent (k : Fin 32) (peer : BitVec 15) (coord : U32) (dir : BitVec 3) (index : BitVec 2)
  /-- LINK_KEY (R465). -/
  | linkKey (k : Fin 32) (p : KeyPeer)
  /-- LINK_NARROW (R316). -/
  | linkNarrow (k : Fin 32)
  /-- LINK_WIDEN (R316). -/
  | linkWiden (k : Fin 32)
  /-- REMAP_REDRAW (R349). -/
  | remapRedraw
  /-- MC_SCRUB (R269). -/
  | mcScrub (k : Fin 13)
  /-- TILE_SCRUB (R105). -/
  | tileScrub (t : Fin 1152)
  /-- SELF_REFRESH_ENTRY (R283). -/
  | selfRefreshEntry (k : Fin 12)
  /-- SELF_REFRESH_EXIT (R283). -/
  | selfRefreshExit (k : Fin 12)
  /-- TEMPERATURE_BAND_REPORT (R282). -/
  | temperatureBandReport (k : Fin 12) (band : BitVec 3)
  /-- THROTTLE_RELAX (R282). -/
  | throttleRelax (k : Fin 12)
  /-- REGION_PLL_LOCK (R478). -/
  | regionPllLock (k : Fin 12)
  /-- REGION_PLL_LOCK_LOSS (R478). -/
  | regionPllLockLoss (k : Fin 12)
  /-- SVU_POWER_DOWN (R119). -/
  | svuPowerDown (t : Fin 1152)
  /-- HOUSE_BEAT_TIMER (R354). -/
  | houseBeatTimer
  /-- HOUSE_MESSAGE_ARRIVAL (R353). -/
  | houseMessageArrival (r : Request)
  /-- BEAT (R355). -/
  | beat (m : BitVec 15)
  /-- ALIVE (R354). -/
  | alive (m : BitVec 15)
  /-- SUSPECT (R357). -/
  | suspect (m : BitVec 15)
  /-- PROBE (R357). -/
  | probe (m : BitVec 15)
  /-- ECHO (R357). -/
  | echo (m : BitVec 15)
  /-- DEAD (R358). -/
  | dead (m : BitVec 15)
  /-- PREPARE (R358). -/
  | prepare (m : BitVec 15)
  /-- READY (R358). -/
  | ready (m : BitVec 15)
  /-- COMMIT (R358). -/
  | commit (m : BitVec 15)
  /-- RELAY (R360). -/
  | relay (m : BitVec 15) (second : Nat)
  /-- SIG (R508). -/
  | sig (m : BitVec 15)
  /-- JOIN (R360). -/
  | join (m : BitVec 15)
  /-- ADMIT (R360). -/
  | admitModule (m : BitVec 15)
  /-- MEMBER_SILENCE (R354). -/
  | memberSilence (m : BitVec 15)
  /-- KEEPER_SILENCE (R355). -/
  | keeperSilence (c : Nat)
  /-- PROBE_TIMEOUT (R357). -/
  | probeTimeout (m : BitVec 15)
  /-- READY_TIMEOUT (R358). -/
  | readyTimeout (m : BitVec 15)
  /-- SUSPECT_REPORT (R357). -/
  | suspectReport (c : Fin 16)
  /-- HOST_FRAME_RECEIVE (R422). -/
  | hostFrameReceive (frame : List Byte) (second : Nat) (target : BitVec 15)
  /-- HOST_RESEND_TIMER (R430). -/
  | hostResendTimer (id : Nat) (ch : Fin 3)
  /-- HOST_ACK_TIMER (R430). -/
  | hostAckTimer (id : Nat) (ch : Fin 3)
  /-- SESSION_INACTIVITY (R423). -/
  | sessionInactivity (id : Nat)
  /-- HELLO (R461). -/
  | hello (role : Nat) (body : List Byte)
  /-- ENCAP (R462). -/
  | encap (session : Nat) (body : List Byte)
  /-- AGREEMENT_TIMEOUT (R461). -/
  | agreementTimeout (session : Nat)
  /-- ARP_REQUEST (R419). -/
  | arpRequest (mac : BitVec 48) (ip : BitVec 32) (want : BitVec 32)
  /-- NEIGHBOUR_SOLICITATION (R419). -/
  | neighbourSolicitation (mac : BitVec 48) (ip : BitVec 128) (want : BitVec 128)
  /-- ECHO_REQUEST (R419). -/
  | echoRequest (v6 : Bool) (mac : BitVec 48) (ip : BitVec 128) (want : BitVec 128) (x : List Byte)
  /-- STATUS (R425). -/
  | status (h : Cmd)
  /-- IDENTITY (R460). -/
  | identity (h : Cmd)
  /-- SESSION_CLOSE (R423). -/
  | sessionClose (h : Cmd)
  /-- REG_READ (R425). -/
  | regRead (h : Cmd)
  /-- REG_WRITE (R425). -/
  | regWrite (h : Cmd)
  /-- CTX_CREATE (R426). -/
  | ctxCreate (h : Cmd)
  /-- CTX_DESTROY (R427). -/
  | ctxDestroy (h : Cmd)
  /-- CTX_RUN (R533). -/
  | ctxRun (h : Cmd)
  /-- CTX_DRAIN (R160). -/
  | ctxDrain (h : Cmd)
  /-- CHECKPOINT (R402). -/
  | checkpoint (h : Cmd)
  /-- RESUME (R533). -/
  | resume (h : Cmd)
  /-- STREAM_ATTACH (R425). -/
  | streamAttach (h : Cmd)
  /-- PROGRAM_LOAD (R533). -/
  | programLoad (h : Cmd)
  /-- KEY_LOAD_BIND_OWNER (R468). -/
  | keyLoadBindOwner (h : Cmd)
  /-- KEY_LOAD_ENROL_OPERATOR (R464). -/
  | keyLoadEnrolOperator (h : Cmd)
  /-- KEY_LOAD_REMOVE_OPERATOR (R464). -/
  | keyLoadRemoveOperator (h : Cmd)
  /-- FIRMWARE_LOAD (R459). -/
  | firmwareLoad (h : Cmd)
  /-- LOCK (R446). -/
  | lock (h : Cmd)
  /-- DEBUG (R510). -/
  | debug (h : Cmd)
  /-- RESET (R485). -/
  | reset (h : Cmd)
  /-- FLEET_TEST_RUN (R501). -/
  | fleetTestRun (h : Cmd)
  /-- FLEET_TEST_REMOVE (R499). -/
  | fleetTestRemove (h : Cmd)
  /-- SIGNATURES_READ (R508). -/
  | signaturesRead (h : Cmd)
  /-- SIGNATURES_ACK (R508). -/
  | signaturesAck (h : Cmd)
  /-- SPARE_OVERRIDE (R425). -/
  | spareOverride (h : Cmd)
  /-- TORUS_TABLE (R329). -/
  | torusTable (h : Cmd)
  /-- BULK_WRITE (R432). -/
  | bulkWrite (id : Nat) (seq : Nat) (c : Nat) (l : Nat) (x : List Byte)
  /-- BULK_WRITE_SIGNAL (R432). -/
  | bulkWriteSignal (id : Nat) (seq : Nat) (c : Nat) (l : Nat) (x : List Byte) (ctr : Nat) (inc : U64)
  /-- BULK_READ_REQUEST (R432). -/
  | bulkReadRequest (id : Nat) (seq : Nat) (c : Nat) (l : Nat) (n : Nat)
  /-- TILE_CTRL_HALT (R130). -/
  | tileCtrlHalt (t : Fin 1152) (x : Bool)
  /-- TILE_RESET (R130). -/
  | tileReset (t : Fin 1152)
  /-- DRK_CTRL_HALT (R263). -/
  | drkCtrlHalt (k : Fin 12) (x : Bool)
  /-- DRK_CTRL_RESET (R263). -/
  | drkCtrlReset (k : Fin 12)
  /-- DRK_FORCE_WRITE (R263). -/
  | drkForceWrite (k : Fin 12) (v : U32)
  /-- RCK_CTRL_HALT (R386). -/
  | rckCtrlHalt (k : Fin 12) (x : Bool)
  /-- MC_CTRL_FLUSH (R287). -/
  | mcCtrlFlush (k : Fin 12)
  /-- LINK_CTRL_DISABLE (R325). -/
  | linkCtrlDisable (k : Fin 32) (x : Bool)
  /-- LINK_CTRL_RETRAIN (R325). -/
  | linkCtrlRetrain (k : Fin 32)
  /-- LINK_CTRL_NARROW_EN (R325). -/
  | linkCtrlNarrowEn (k : Fin 32) (x : Bool)
  /-- LANE_TEST_PATTERN (R494). -/
  | laneTestPattern (k : Fin 32) (pattern : BitVec 3) (loop : BitVec 2) (lanes : BitVec 9)
  /-- LANE_TEST_INJECT (R512). -/
  | laneTestInject (k : Fin 32)
  /-- HP_CTRL_DISABLE (R436). -/
  | hpCtrlDisable (x : Bool)
  /-- HP_CTRL_FORCE_800 (R417). -/
  | hpCtrlForce800 (x : Bool)
  /-- HP_TEST_PATTERN (R513). -/
  | hpTestPattern (v : BitVec 12)
  /-- UPD_GO (R443). -/
  | updGo (n : Nat)
  /-- GROUP_STROBE (R443). -/
  | groupStrobe (fire : BitVec 16)
  /-- GUARDED_PAIR_WRITE (R444). -/
  | guardedPairWrite (x : U32) (y : U32)
  /-- GUARD_WINDOW_EXPIRY (R444). -/
  | guardWindowExpiry (n : Nat)
  /-- CHIP_EVENT_CLEAR (R439). -/
  | chipEventClear (alert : Bool) (v : U32)
  /-- COUNTER_LOW_READ (R132). -/
  | counterLowRead (l : Nat)
  /-- REGISTER_WRITE (R447). -/
  | registerWrite (l : Nat) (v : U32)
  /-- PWR_EN_RISE (R475). -/
  | pwrEnRise
  /-- PWR_EN_FALL (R476). -/
  | pwrEnFall
  /-- RST_L_ASSERT (R474). -/
  | rstLAssert
  /-- MODULE_RESET (R486). -/
  | moduleReset (io : ItinIn)
  /-- CONTEXT_RESET (R488). -/
  | contextReset (c : Fin 16)
  /-- COLD_START (R479). -/
  | coldStart (io : ItinIn)
  /-- INPUT_SAMPLE (R472). -/
  | inputSample (v : U16)
  /-- UNDERVOLTAGE_LOCKOUT (R489). -/
  | undervoltageLockout
  /-- OVERVOLTAGE_TRIP (R472). -/
  | overvoltageTrip
  /-- INPUT_RECOVERY_START (R489). -/
  | inputRecoveryStart
  /-- POWER_CAP_WINDOW (R473). -/
  | powerCapWindow (w : U16)
  /-- THERMAL_CRITICAL_PERSIST (R477). -/
  | thermalCriticalPersist
  /-- PACKAGE_THERMAL_ALERT (R477). -/
  | packageThermalAlert
  /-- PACKAGE_THERMAL_TRIP (R477). -/
  | packageThermalTrip
  /-- REFERENCE_LOST (R478). -/
  | referenceLost
  /-- BORE_RUN_END (R501). -/
  | boreRunEnd (fails : List BoreFail) (limit : Bool)
  /-- SEQUENCE_LIMIT_REKEY (R305). -/
  | sequenceLimitRekey (k : Fin 32)
  /-- ETHERNET_LINK_CHANGE (R417). -/
  | ethernetLinkChange (p : EtherPeer)
  /-- HOST_PORT_RETRY (R479). -/
  | hostPortRetry (p : EtherPeer)
  /-- DHCP_REPLY (R419). -/
  | dhcpReply (ip : BitVec 32)
  /-- ROUTER_ADVERTISEMENT (R419). -/
  | routerAdvertisement (prefix_ : U64)
  /-- NETWORK_RECOVERY_RETRY (R481). -/
  | networkRecoveryRetry (io : ItinIn)
  /-- BUS_TEMPERATURE_INDICATION (R286). -/
  | busTemperatureIndication (bus : Fin 16) (hot : Bool)
  /-- ENTROPY_HEALTH_FAILURE (R453). -/
  | entropyHealthFailure
  /-- LANE_LOCK_ACQUIRED (R495). -/
  | laneLockAcquired (k : Fin 32) (j : Fin 9)
  /-- LANE_LOCK_LOST (R495). -/
  | laneLockLost (k : Fin 32) (j : Fin 9)
  /-- TEST_ACCESS_PORT (R509). -/
  | testAccessPort (code : Byte)
  /-- DEBUG_PORT_ACCESS (R510). -/
  | debugPortAccess (d : DebugOp)
deriving DecidableEq, Repr

end Sys2Proof
end

