-- ==== Sys2Proof/Decode.lean ====
section
/-!
DEFINITION. Commands that a word spells by the bits of spec/opcode_table.json. The table gives no row any bits, so no
word spells a command.
-/
namespace Sys2Proof

/-- The command that the low `nbits` bits of `w` spell: none, since no row of the table has fields.
[DESIGN CHOICE, log 3; DESIGN CHOICE, log 4] -/
def decodeTableWord (_nbits _w : Nat) : Option Instr := none

end Sys2Proof
end

