-- ==== Sys2Proof/Machine/Formats.lean ====
section
/-!
DEFINITION. Number formats (R27 to R40, R82): reading a code as an exact value, round_to, and encoding with its
events.
-/
namespace Sys2Proof.Machine

/-- Element width in bits (R27). -/
def fmtWidth : Fmt → Nat
  | .f64 => 64 | .f32 => 32 | .f16 => 16 | .bf16 => 16 | .h8 => 8 | .w8 => 8 | .n4 => 4

/-- Significand bits, hidden bit included (R27). -/
def fmtP : Fmt → Nat
  | .f64 => 53 | .f32 => 24 | .f16 => 11 | .bf16 => 8 | .h8 => 4 | .w8 => 3 | .n4 => 2

def fmtBias : Fmt → Nat
  | .f64 => 1023 | .f32 => 127 | .f16 => 15 | .bf16 => 127 | .h8 => 7 | .w8 => 15 | .n4 => 1

def fmtEmin : Fmt → Int
  | .f64 => -1022 | .f32 => -126 | .f16 => -14 | .bf16 => -126 | .h8 => -6 | .w8 => -14 | .n4 => 0

def fmtEmax : Fmt → Int
  | .f64 => 1023 | .f32 => 127 | .f16 => 15 | .bf16 => 127 | .h8 => 8 | .w8 => 16 | .n4 => 2

/-- 12-bit slices an operand of the format occupies in the array (R27). -/
def fmtSlices : Fmt → Nat
  | .f64 => 5 | .f32 => 2 | _ => 1

/-- H8, W8 and N4: no infinity and no negative zero (R29). -/
def fmtShort : Fmt → Bool
  | .h8 => true | .w8 => true | .n4 => true | _ => false

/-- The format's code of R82. -/
def fmtCode : Fmt → Nat
  | .f64 => 0 | .f32 => 1 | .f16 => 2 | .bf16 => 3 | .h8 => 4 | .w8 => 5 | .n4 => 6

/-- The element format of a code of R82; code 7, seam, is none. -/
def fmtOfCode : Nat → Option Fmt
  | 0 => some .f64 | 1 => some .f32 | 2 => some .f16 | 3 => some .bf16
  | 4 => some .h8 | 5 => some .w8 | 6 => some .n4 | _ => none

/-- The reference exponent Ef (R57). -/
def fmtEf (f : Fmt) : Int := fmtEmax f

/-- Fraction bits stored in a code. -/
def fmtT (f : Fmt) : Nat := fmtP f - 1

/-- Exponent-field bits of a code. -/
def fmtEbits (f : Fmt) : Nat := fmtWidth f - fmtP f

/-- The canonical NaN (R30) or the one NaN code (R29). -/
def nanCode : Fmt → Nat
  | .f64 => 0x7FF8000000000000 | .f32 => 0x7FC00000 | .f16 => 0x7E00 | .bf16 => 0x7FC0
  | .h8 => 0x80 | .w8 => 0x80 | .n4 => 0x8

def signBit (f : Fmt) (s : Bool) : Nat := if s then 2 ^ (fmtWidth f - 1) else 0

/-- The infinity of an IEEE format. -/
def infCode (f : Fmt) (s : Bool) : Nat := signBit f s + (2 ^ fmtEbits f - 1) * 2 ^ fmtT f

/-- The largest finite value of sign `s`. -/
def maxCode (f : Fmt) (s : Bool) : Nat :=
  if fmtShort f then signBit f s + (2 ^ (fmtWidth f - 1) - 1) else infCode f s - 1

/-- A code of a format read as an exact value (R28 to R30). -/
def fdecode (f : Fmt) (code : Nat) : FVal :=
  let t := fmtT f
  let c := code % 2 ^ fmtWidth f
  let s := c.testBit (fmtWidth f - 1)
  let ef := (c / 2 ^ t) % 2 ^ fmtEbits f
  let fr := c % 2 ^ t
  if fmtShort f then
    if s && ef = 0 && fr = 0 then .nan
    else if ef = 0 then .fin s fr (fmtEmin f - t)
    else .fin s (2 ^ t + fr) ((ef : Int) - fmtBias f - t)
  else if ef = 2 ^ fmtEbits f - 1 then (if fr = 0 then .inf s else .nan)
  else if ef = 0 then .fin s fr (fmtEmin f - t)
  else .fin s (2 ^ t + fr) ((ef : Int) - fmtBias f - t)

/-- round_to of R32; the value is (-1)^s × m × 2^e, `t` says nonzero bits lie below. -/
def roundTo (s : Bool) (m : Nat) (e : Int) (t : Bool) (f : Fmt) (mode : RMode) (rbits : Nat) : Rnd :=
  if m = 0 then ⟨s, 0, 0, false⟩
  else
    let p := fmtP f
    let top := e + Nat.log2 m
    let q := max top (fmtEmin f) - ((p : Int) - 1)
    if q ≤ e then ⟨s, m <<< (e - q).toNat, q, decide (q + p - 1 > fmtEmax f)⟩
    else
      let d := (q - e).toNat
      let sig := m >>> d
      let rest := m % 2 ^ d
      let half := 2 ^ (d - 1)
      let up : Bool := match mode with
        | .nearest => decide (rest > half) || (decide (rest = half) && (t || sig % 2 == 1))
        | .zero => false
        | .stoch => decide (rbits + (rest <<< 16) >>> d ≥ 65536)
      let sig1 := if up then sig + 1 else sig
      let sig2 := if sig1 = 2 ^ p then sig1 / 2 else sig1
      let q2 := if sig1 = 2 ^ p then q + 1 else q
      ⟨s, sig2, q2, decide (q2 + p - 1 > fmtEmax f)⟩

/-- R33 and R34: the code of a rounded value, and whether SAT is raised. `req` is requested saturation. -/
def encodeRnd (f : Fmt) (mode : RMode) (req : Bool) (r : Rnd) : Nat × Bool :=
  if r.sig = 0 then (if fmtShort f then 0 else signBit f r.s, false)
  else if r.ovf then
    if fmtShort f then (maxCode f r.s, true)
    else if req then (maxCode f r.s, true)
    else if mode = .zero then (maxCode f r.s, false)
    else (infCode f r.s, false)
  else if r.sig ≥ 2 ^ (fmtP f - 1) then
    (signBit f r.s + (r.q + fmtP f - 1 + fmtBias f).toNat * 2 ^ fmtT f + (r.sig - 2 ^ (fmtP f - 1)), false)
  else (signBit f r.s + r.sig, false)

/-- R35: an exact value divided by 2^k into a format: the code and whether SAT is raised. -/
def convertTo (f : Fmt) (mode : RMode) (req : Bool) (rbits : Nat) (k : Int) (v : FVal) (t : Bool) : Nat × Bool :=
  match v with
  | .nan => (nanCode f, false)
  | .inf s => if fmtShort f then (maxCode f s, true) else (infCode f s, false)
  | .fin s m e => encodeRnd f mode req (roundTo s m (e - k) t f mode rbits)

def fIsNan : FVal → Bool
  | .nan => true | _ => false

/-- The magnitude is zero. -/
def fIsZero : FVal → Bool
  | .fin _ m _ => m == 0 | _ => false

def fSign : FVal → Bool
  | .nan => false | .inf s => s | .fin s _ _ => s

def fNeg : FVal → FVal
  | .nan => .nan | .inf s => .inf (!s) | .fin s m e => .fin (!s) m e

def fAbs : FVal → FVal
  | .nan => .nan | .inf _ => .inf false | .fin _ m e => .fin false m e

/-- Multiply by 2^k exactly (R57). -/
def fScale (k : Int) : FVal → FVal
  | .fin s m e => .fin s m (e + k) | v => v

/-- The signed integer m × 2^(e - b) of a finite value, for b at most e. -/
def fAlign (s : Bool) (m : Nat) (e b : Int) : Int :=
  let x : Int := (m <<< (e - b).toNat : Nat)
  if s then -x else x

/-- Compare finite values exactly: the sign of a - b. -/
def finCmp (s1 : Bool) (m1 : Nat) (e1 : Int) (s2 : Bool) (m2 : Nat) (e2 : Int) : Ordering :=
  let b := min e1 e2
  compare (fAlign s1 m1 e1 b) (fAlign s2 m2 e2 b)

/-- The numerical order of R36, with +0 = -0; none when unordered. -/
def fCmp : FVal → FVal → Option Ordering
  | .nan, _ => none
  | _, .nan => none
  | .inf a, .inf b => some (if a = b then .eq else if a then .lt else .gt)
  | .inf a, .fin _ _ _ => some (if a then .lt else .gt)
  | .fin _ _ _, .inf b => some (if b then .gt else .lt)
  | .fin s1 m1 e1, .fin s2 m2 e2 => some (finCmp s1 m1 e1 s2 m2 e2)

def fEq (a b : FVal) : Bool := fCmp a b == some .eq
def fLt (a b : FVal) : Bool := fCmp a b == some .lt
/-- Greater or equal of R36: false when unordered. -/
def fGe (a b : FVal) : Bool := fCmp a b == some .gt || fCmp a b == some .eq

/-- Maximum of R37: NaN wins; +0 ranks above -0. -/
def fMax (a b : FVal) : FVal :=
  if fIsNan a || fIsNan b then .nan
  else match fCmp a b with
    | some .gt => a
    | some .lt => b
    | _ => if fIsZero a && fIsZero b then (if fSign a then b else a) else a

/-- Minimum of R37: NaN wins; -0 ranks below +0. -/
def fMin (a b : FVal) : FVal :=
  if fIsNan a || fIsNan b then .nan
  else match fCmp a b with
    | some .lt => a
    | some .gt => b
    | _ => if fIsZero a && fIsZero b then (if fSign a then a else b) else a

/-- The total order of R38: -∞ … -0, +0 … +∞, NaN; all NaNs equal. -/
def fTotalLe (a b : FVal) : Bool :=
  if fIsNan b then true
  else if fIsNan a then false
  else match fCmp a b with
    | some .lt => true
    | some .gt => false
    | _ => if fIsZero a && fIsZero b then (fSign a || !fSign b) else true

/-- Exact sum of two finite values; an exact zero follows IEEE 754 (R39). -/
def finAdd (s1 : Bool) (m1 : Nat) (e1 : Int) (s2 : Bool) (m2 : Nat) (e2 : Int) : FVal :=
  let b := min e1 e2
  let x := fAlign s1 m1 e1 b + fAlign s2 m2 e2 b
  if x = 0 then .fin (s1 && s2 && m1 = 0 && m2 = 0) 0 0
  else .fin (decide (x < 0)) x.natAbs b

/-- Sum (R39). -/
def fAdd : FVal → FVal → FRes
  | .nan, _ => ⟨.nan, false, false⟩
  | _, .nan => ⟨.nan, false, false⟩
  | .inf a, .inf b => if a = b then ⟨.inf a, false, false⟩ else ⟨.nan, false, true⟩
  | .inf a, _ => ⟨.inf a, false, false⟩
  | _, .inf b => ⟨.inf b, false, false⟩
  | .fin s1 m1 e1, .fin s2 m2 e2 => ⟨finAdd s1 m1 e1 s2 m2 e2, false, false⟩

def fSub (a b : FVal) : FRes := fAdd a (fNeg b)

/-- Product (R39). -/
def fMul : FVal → FVal → FRes
  | .nan, _ => ⟨.nan, false, false⟩
  | _, .nan => ⟨.nan, false, false⟩
  | .inf a, .inf b => ⟨.inf (a != b), false, false⟩
  | .inf a, .fin s m _ => if m = 0 then ⟨.nan, false, true⟩ else ⟨.inf (a != s), false, false⟩
  | .fin s m _, .inf b => if m = 0 then ⟨.nan, false, true⟩ else ⟨.inf (s != b), false, false⟩
  | .fin s1 m1 e1, .fin s2 m2 e2 => ⟨.fin (s1 != s2) (m1 * m2) (e1 + e2), false, false⟩

/-- Product and sum with no rounding between (R40); one NAN_GEN when no operand is NaN. -/
def fFma (a b c : FVal) : FRes :=
  if fIsNan a || fIsNan b || fIsNan c then ⟨.nan, false, false⟩
  else
    let p := fMul a b
    if p.gen then ⟨.nan, false, true⟩ else fAdd p.v c

/-- Quotient to at least 130 bits with a sticky bit (R39). -/
def fDiv : FVal → FVal → FRes
  | .nan, _ => ⟨.nan, false, false⟩
  | _, .nan => ⟨.nan, false, false⟩
  | .inf _, .inf _ => ⟨.nan, false, true⟩
  | .inf a, .fin s _ _ => ⟨.inf (a != s), false, false⟩
  | .fin s _ _, .inf b => ⟨.fin (s != b) 0 0, false, false⟩
  | .fin s1 m1 e1, .fin s2 m2 e2 =>
    if m2 = 0 then (if m1 = 0 then ⟨.nan, false, true⟩ else ⟨.inf (s1 != s2), false, false⟩)
    else if m1 = 0 then ⟨.fin (s1 != s2) 0 0, false, false⟩
    else
      let sh := 130 + Nat.log2 m2 - Nat.log2 m1
      let n := m1 <<< sh
      ⟨.fin (s1 != s2) (n / m2) (e1 - e2 - sh), n % m2 != 0, false⟩

/-- The integer square root of `n`, bit by bit: the largest r below 2^bits with r² ≤ n. -/
def isqrtAux (n : Nat) : Nat → Nat → Nat
  | 0, r => r
  | b + 1, r => if (r + 2 ^ b) * (r + 2 ^ b) ≤ n then isqrtAux n b (r + 2 ^ b) else isqrtAux n b r

def isqrt (n : Nat) : Nat := isqrtAux n (Nat.log2 n / 2 + 1) 0

/-- Square root to at least 80 bits with a sticky bit (R39: a root below -0 is invalid). -/
def fSqrt : FVal → FRes
  | .nan => ⟨.nan, false, false⟩
  | .inf s => if s then ⟨.nan, false, true⟩ else ⟨.inf false, false, false⟩
  | .fin s m e =>
    if m = 0 then ⟨.fin s 0 0, false, false⟩
    else if s then ⟨.nan, false, true⟩
    else
      let sh := 160 + (if (e - 160) % 2 = 0 then 0 else 1)
      let n := m <<< sh
      let r := isqrt n
      ⟨.fin false r ((e - sh) / 2), r * r != n, false⟩

/-- One event count. -/
def evOf (sat nangen : Bool) : Ev := { sat := sat.toNat, nangen := nangen.toNat }

def evAdd (a b : Ev) : Ev :=
  { sat := a.sat + b.sat, nangen := a.nangen + b.nangen, wloss := a.wloss + b.wloss,
    sunder := a.sunder + b.sunder, ssat := a.ssat + b.ssat, first := a.first + b.first, clamp := a.clamp + b.clamp }

def evClamps (n : Nat) : Ev := { clamp := n }

/-- Round an exact result into a format with its events (R31 to R35, R39). -/
def finish (f : Fmt) (mode : RMode) (r : FRes) : Nat × Ev :=
  let c := convertTo f mode false 0 0 r.v r.sticky
  (c.1, evOf c.2 r.gen)

/-- The least integer E with M ≤ 2^E, for M = m × 2^e above zero (R57). -/
def cexp (m : Nat) (e : Int) : Int :=
  if m = 2 ^ Nat.log2 m then e + Nat.log2 m else e + Nat.log2 m + 1

end Sys2Proof.Machine
end

