-- ==== Sys2Proof/Machine/Parts.lean ====
section
/-!
DEFINITION. The data types of the Derricks, the Reckoners, the links, the houses, the host port, the Vyano root, power and
the fleet test (chapters 09, 11 to 13, 15 to 19 of spec/).
-/
namespace Sys2Proof.Machine

/-! ### The Derrick (chapter 09) -/

/-- A loaded structure (R230, R234): its image as copied at load, derived sizes and environment area. -/
structure DrkStruct where
  ctx : Nat
  image : List Byte
  bodies : Nat
  slots : Nat
  nq : Nat
  nv : Nat
  rows : Nat
  area : Nat
  areaLen : Nat
  stride : Nat
  /-- what converting its image has met: it stands in the status of every solve (R234, R240) -/
  nanIn : Bool := false
  satClass : Option Nat := none
deriving DecidableEq, Repr

/-- A resident environment: its values as Q words (R236, R243). -/
structure DrkEnv where
  ctx : Nat
  slot : Nat
  q : List Int
  qd : List Int
  tau : List Int
  grav : List Int
  active : List Bool
  /-- anchors, normal and friction set by CONTACT, by constraint slot -/
  contact : Tbl (List Int) := []
  /-- body parameters set by PARAM, by body × 16 + field -/
  params : Tbl Int := []
  /-- impulse of each row at the last completed solve in which it was active (R249) -/
  warm : Tbl Int := []
  /-- adjoint seeds by output position (R243) -/
  seeds : Tbl Int := []
  status : U64 := 0
  /-- what converting its records has met since its last solve (R240) -/
  nanIn : Bool := false
  satClass : Option Nat := none
deriving DecidableEq, Repr

/-- A queued batch (R200, R241): its bytes lie in a place of the queue area of its stack (R229); `round` is B.ROUND and
`specs` its round records as round number and values, which the Derrick notes as it copies the batch. -/
structure Batch where
  ctx : Nat
  step : Nat
  tile : Nat
  sub : Nat
  place : Nat
  len : Nat
  round : Nat
  specs : List (Nat × List Nat)
deriving DecidableEq, Repr

/-- A submission the Derrick has not copied yet (R200); counter 0 is none. -/
structure DrkSub where
  ctx : Nat
  step : Nat
  tile : Nat
  sub : Nat
  addr : U64
  len : Nat
  counter : U64
deriving DecidableEq, Repr

/-- A round record after its clamps (R244). -/
structure RoundRec where
  mode : Nat
  cut : Bool
  tape : Bool
  warm : Bool
  iters : Nat
  batches : Nat
  deadline : Nat
  h : U64
  first : Nat
  nenv : Nat
  counter : U64
  inc : U64
  tapeBase : U64
  tapeLimit : U64
deriving DecidableEq, Repr

/-- What the solver's kernels work on: everything a solve is a function of (R252). -/
structure DrkIn where
  structure_ : DrkStruct
  env : DrkEnv
  h : Int
  mode : Nat
deriving DecidableEq, Repr

/-- What the parts of a solve that precede the first iteration form from the pivots as replaced (R247, R253): `a` the
Delassus rows, `b` the row constants. -/
structure DrkPrep where
  a : List (List Int)
  b : List Int
  satClass : Option Nat
  sats : Nat
deriving DecidableEq, Repr, Inhabited

/-- What the kernels of finishing form (R247): accelerations, M⁻¹ Jᵀ λ, the quaternions of q as advanced and not yet
renormalised, in their places of q, and the poses; of an adjoint solve the adjoints. -/
structure DrkFin where
  qdd : List Int
  dv : List Int
  quat : List Int
  poses : List Int
  adj : List Int
  satClass : Option Nat
  sats : Nat
deriving DecidableEq, Repr, Inhabited

/-- The working values of one environment of the round in progress. -/
structure Work where
  env : Nat
  inp : DrkIn
  prep : DrkPrep
  /-- failing pivots: source, index and value (R253) -/
  pivots : List (Nat × Nat × Int)
  /-- iterates of λ, the initial guess first -/
  lams : List (List Int)
  act : List Bool
  zeroGuess : Bool
  satClass : Option Nat
  sats : Nat
  nan : Bool
  /-- adjoint solves: the adjoints of λ, of each row's residual by iteration, and iterations run backwards (R259) -/
  adjLam : List Int := []
  adjRes : List (List Int) := []
deriving DecidableEq, Repr

/-- The current round (R245, R261). -/
structure DrkRound where
  round : Nat
  spec : RoundRec
  batches : List Batch
  applied : Bool := false
  prepped : Bool := false
  j : Nat := 0
  work : List Work := []
  /-- the built-in program's last DSTAT since DPREP or DITER (R261) -/
  stat : Option Nat := none
deriving DecidableEq, Repr

/-- A tape entry (R258). -/
structure TapeEntry where
  step : Nat
  round : Nat
  first : Nat
  nenv : Nat
  mode : Nat
  j : Nat
  addr : Nat
  len : Nat
  work : List Work
deriving DecidableEq, Repr

/-- What a Derrick holds for one context (R228, R251, R257, R258). -/
structure DrkCtx where
  next : Nat := 0
  cut : Option (Nat × Nat) := none
  cur : Option DrkRound := none
  tapeBase : U64 := 0
  tapeTop : U64 := 0
  tape : List TapeEntry := []
  statusOr : U16 := 0
  rounds : Nat := 0
  minIters : Option Nat := none
  flagged : Nat := 0
  late : Nat := 0
  firstEnv : Option (Nat × Nat) := none
  /-- DRK_FORCE while the context runs in replay mode (R263) -/
  force : U32 := 0
deriving DecidableEq, Repr

structure Drk where
  halt : Bool := false
  fault : BitVec 2 := 0
  roundsRun : U32 := 0
  solves : U32 := 0
  storeCorr : U32 := 0
  storeUncorr : U32 := 0
  lastRound : U16 := 0
  queue : List Batch := []
  subs : List DrkSub := []
  /-- structures by context × 16 + slot: the work store tags them by context (R229) -/
  structs : Tbl DrkStruct := []
  /-- environments by context × 4 096 + number -/
  envs : Tbl DrkEnv := []
  ctx : Tbl DrkCtx := []
  /-- physical errors of code words that the next operation on the work store meets (R227): the model's own field -/
  storeErrs : List (BitVec 144) := []
deriving DecidableEq, Repr

/-! ### The Reckoner (R386) -/

/-- Where the built-in update program stands (R377, R384): each constructor names its next action. -/
inductive RckPos where
  /-- the loop's top: a valid table, and STEPEND of the previous step done -/
  | top
  /-- wait for the shard counter of record j -/
  | counter (j : Nat)
  /-- UPD.NORM form 0 of record j -/
  | partialSum (j : Nat)
  | localAdd
  /-- the forwarding Reckoner's: one add for each absent region -/
  | absent
  | waitLocal
  | forward
  | fence
  | report
  | clear
  /-- the home's -/
  | waitHome
  | copy
  /-- the total to entry j of the norm list -/
  | send (j : Nat)
  | totalAdd
  | waitTotal
  /-- UPD.NORM form 1 -/
  | total
  /-- the update of record j, and its notify list -/
  | update (j : Nat)
  | notify (j : Nat)
deriving DecidableEq, Repr

/-- The built-in update program of one context: its place, its run step once a valid table gave it, its clip factor. -/
structure RckLoop where
  pos : RckPos := .top
  r : Option Nat := none
  clip : U64 := 0x3FF0000000000000
deriving DecidableEq, Repr

structure Rck where
  halt : Bool := false
  fault : BitVec 2 := 0
  instr : U32 := 0
  elems : U32 := 0
  elemsLow : Nat := 0
  signals : U32 := 0
  /-- partial digest of the last completed step -/
  last : BitVec 128 := 0
  /-- the partial digest of the step and the skip flag, by context (R378, R381) -/
  digest : Tbl (BitVec 128) := []
  skip : Tbl Bool := []
  /-- built-in programs by context -/
  loops : Tbl RckLoop := []
  /-- groups whose scalars have been formed in the step, by context × 256 + group (R372) -/
  formed : List Nat := []
  /-- the datapath store holds an error that the next update meets (R386): a physical fault, the model's own field -/
  storeBad : Bool := false
deriving DecidableEq, Repr

/-! ### Links (R300 to R316, R325, R512) -/

/-- A flit's content between links: the header fields of R301 and the data. -/
structure Flit where
  code : Nat
  count : Nat
  dst : BitVec 15
  src : BitVec 15
  tag : BitVec 16
  epoch : U32
  cls : Nat
  offset : Nat
  data : List Byte
deriving DecidableEq, Repr

/-- A flit that waits in the switch for a link: its channel there, and the link and channel whose receive buffer it still
holds, none for a flit of this module (R307). -/
structure Queued where
  vc : Nat
  flit : Flit
  src : Option (Nat × Nat) := none
deriving DecidableEq, Repr

/-- A flit in the replay buffer (R309): header and payload, and the control word it was sent with. -/
structure Unacked where
  seq : Nat
  content : List Byte
  cw : List Byte
deriving DecidableEq, Repr

structure Link where
  st : BitVec 4 := 0
  spared : BitVec 4 := 15
  peer : BitVec 15 := 0
  peerIdx : BitVec 2 := 0
  dir : BitVec 3 := 0
  disable : Bool := false
  narrowEn : Bool := true
  idle : U16 := 20
  /-- session keys are held that a retrain keeps; a KEY is needed even on a retrain -/
  keyed : Bool := false
  rekey : Bool := false
  txKey : List Byte := []
  rxKey : List Byte := []
  txNext : Nat := 0
  rxNext : Nat := 0
  /-- flits sent and not acknowledged -/
  replay : List Unacked := []
  /-- times the oldest unacknowledged flit has been replayed (R310) -/
  replays : Nat := 0
  /-- the receiver discards until the expected flit comes (R309) -/
  nak : Bool := false
  /-- credits per virtual channel, and those to give back -/
  credits : List Nat := [256, 256, 256, 256]
  owed : List Nat := [0, 0, 0, 0]
  ackOwed : Nat := 0
  /-- flits waiting in the switch for this link -/
  queue : List Queued := []
  corr : U32 := 0
  uncorr : U32 := 0
  authfail : U32 := 0
  retry : U32 := 0
  retrain : U32 := 0
  narrow : U32 := 0
  discard : U32 := 0
  badflit : U32 := 0
  tx : U32 := 0
  rx : U32 := 0
  txLow : Nat := 0
  rxLow : Nat := 0
  pattern : BitVec 3 := 0
  loop : BitVec 2 := 0
  lanes : BitVec 9 := 0
  locked : BitVec 9 := 0
  lost : BitVec 9 := 0
  errs : Tbl U32 := []
  bits : U32 := 0
  flitCorr : U32 := 0
  flitUncorr : U32 := 0
  /-- lanes whose next test flit or word carries an injected error (R512) -/
  inject : BitVec 9 := 0
deriving DecidableEq, Repr

/-! ### The torus table and houses (R328, R348, R351 to R363) -/

structure Torus where
  valid : Bool := false
  ext : List Nat := [1, 1, 1, 1]
  cuts : List Nat := [0, 1, 2, 3]
  houseSize : Nat := 1
  epoch : U32 := 0
  /-- module number at each logical index; none is vacant -/
  places : List (Option Nat) := []
  keepers : List Nat := []
  /-- remap phases: for each, the bytes of the logical axes (R348) -/
  phases : List (List Nat) := []
  rmCounter : U64 := 0
  /-- physical extents and coordinates, which the phases renumber -/
  physExt : List Nat := [1, 1, 1, 1]
deriving DecidableEq, Repr

/-- A house message (R353). -/
structure HouseMsg where
  kind : Nat
  house : Nat
  term : U32
  epoch : U32
  subject : BitVec 15
  seq : U16
  live : U64
  dead : U64
  body : List Byte
deriving DecidableEq, Repr

structure House where
  isKeeper : Bool := false
  isFirst : Bool := false
  prepared : Bool := false
  term : U32 := 0
  /-- keepers of other houses that took the role by succession, as this module has seen them: term, module (R356) -/
  seen : Tbl (Nat × Nat) := []
  /-- the keeper has admitted this module since its start (R360, R483) -/
  admitted : Bool := false
  beat : U16 := 2500
  keeperTo : BitVec 24 := 25000
  memberTo : BitVec 24 := 25000
  probeTo : BitVec 24 := 12500
  raises : U32 := 0
  successions : U32 := 0
  reports : U32 := 0
  dropped : U32 := 0
  phase : BitVec 3 := 0
  remaps : U32 := 0
  /-- live mask of the last BEAT accepted, or the keeper's own (R354, R355) -/
  live : U64 := 0
  /-- members declared dead that wait for a raise, by module number (R358) -/
  dead : List Nat := []
  /-- module numbers declared dead in the job -/
  gone : List Nat := []
  /-- the raise in progress: proposed epoch, and modules whose READY has come -/
  raise : Option (U32 × List Nat) := none
  /-- PREPARE received and READY not sent: proposed epoch -/
  prepare : Option U32 := none
  /-- probes in progress: suspect, reporter -/
  probes : List (Nat × Nat) := []
  /-- reports sent to the keeper and not answered: context, suspect -/
  pendingRpt : List (Nat × Nat) := []
  /-- reports seen in each context's report record -/
  seenRpt : Tbl Nat := []
  /-- modules asking for admission -/
  joins : List Nat := []
  /-- attested and rekeyed since fenced: links that have passed KEY -/
  rekeyed : U32 := 0
  /-- fragments of RELAY and SIG collected, by sender: unit length, bytes -/
  relayIn : Tbl (Nat × List Byte) := []
  sigIn : Tbl (Nat × List Byte) := []
  /-- number of the last fragment sent to a module, and received from one -/
  numbered : Tbl Nat := []
  got : Tbl Nat := []
  /-- fragments to repeat every beat: destination, message -/
  outbox : List (Nat × HouseMsg) := []
deriving DecidableEq, Repr

/-! ### The host port and the Vyano root (R417 to R436, R452 to R470) -/

/-- An agreement in progress (R461). -/
structure Agreement where
  role : Nat
  peer : List Byte
  transcript : List Byte
  session : U64
  dk : List Byte
deriving DecidableEq, Repr

structure HostPort where
  link : BitVec 2 := 0
  ipv4 : Bool := false
  ip4 : BitVec 32 := 0
  /-- IPv6 addresses: link-local and those of stateless autoconfiguration (R419) -/
  ip6 : List (BitVec 128) := []
  disable : Bool := false
  force800 : Bool := false
  sessionTo : U16 := 30
  retry : U16 := 100
  agreeRate : BitVec 8 := 64
  mac : BitVec 48 := 0
  lastCtr : U64 := 255
  rx : U32 := 0
  tx : U32 := 0
  rxLow : Nat := 0
  txLow : Nat := 0
  dropLen : U32 := 0
  dropProto : U32 := 0
  dropIp : U32 := 0
  dropUdp : U32 := 0
  dropHdr : U32 := 0
  dropSession : U32 := 0
  dropAuth : U32 := 0
  dropSeq : U32 := 0
  cmdRefused : U32 := 0
  bulkRefused : U32 := 0
  sessionEnd : U32 := 0
  test : U16 := 0
  testErr : Tbl U32 := []
  /-- second of the last agreement frame, and agreement frames accepted in it (R422) -/
  second : Nat := 0
  agreed : Nat := 0
  agreements : List Agreement := []
  /-- where the last transport frame came from (R420); none where the keeper relayed it -/
  sender : Option HostAddr := none
  /-- where the last frame for each member of the house came from (R435) -/
  relayed : Tbl HostAddr := []
  nextSession : U64 := 1
  /-- the firmware load window's content, while FIRMWARE_LOAD has it open (R432, R459) -/
  window : Option (List Byte) := none
  /-- pluggable left in low-power mode for its power class (R523) -/
  lowPower : Bool := false
deriving DecidableEq, Repr

/-- The fields of a firmware image's header (R459). -/
structure FwHeader where
  slot : Nat
  svn : U16
  raise : Bool
  revoke : BitVec 4
  size : Nat
  digest : List Byte
deriving DecidableEq, Repr

/-- One copy of a persisted item: its generation, whether its check holds, and the item (R458). -/
structure NvCopy (α : Type) where
  gen : Nat
  sound : Bool := true
  item : α
deriving DecidableEq, Repr

/-- The two copies of a persisted item in the non-volatile cells (R458). [DESIGN CHOICE, log 108] -/
structure NvCells (α : Type) where
  first : NvCopy α
  second : NvCopy α
deriving DecidableEq, Repr

/-- The cells of an item that the manufacture wrote once. -/
def NvCells.made {α : Type} (x : α) : NvCells α := { first := { gen := 1, item := x }, second := { gen := 0, item := x } }

/-- The second copy is the valid one of newer generation. -/
def NvCells.secondNewer {α : Type} (c : NvCells α) : Bool :=
  c.second.sound && (!c.first.sound || decide (c.first.gen < c.second.gen))

/-- A read takes the valid copy with the newer generation. -/
def NvCells.read {α : Type} (c : NvCells α) : α := if c.secondNewer then c.second.item else c.first.item

/-- A write goes to the copy with the older generation. -/
def NvCells.write {α : Type} (c : NvCells α) (x : α) : NvCells α :=
  if c.secondNewer then { c with first := { gen := c.second.gen + 1, item := x } }
  else { c with second := { gen := c.first.gen + 1, item := x } }

/-- [DESIGN CHOICE, log 11] -/
structure Vyano where
  keyReady : Bool := false
  exhausted : Bool := false
  rngFault : Bool := false
  next : Nat := 0
  /-- the ceiling C of the signature indices (R457) -/
  ceilNv : NvCells Nat := .made 0
  svn : U16 := 0
  svnMinNv : NvCells U16 := .made 0
  slotValid : BitVec 4 := 0
  slotRevoked : BitVec 4 := 0
  slotFw : BitVec 4 := 0
  slotDev : BitVec 4 := 0
  slotKeys : List (List Byte) := [[], [], [], []]
  signs : U32 := 0
  nvWrites : U32 := 0
  agreeFail : U32 := 0
  ctxKeys : U32 := 0
  /-- digests of the enrolled operator keys (R463) -/
  opsNv : NvCells (List (Option (List Byte))) := .made [none, none, none, none]
  /-- the persisted command counter ceiling W (R429) -/
  ctrCeilNv : NvCells Nat := .made 256
  cert : List Byte := []
  fwDigest : List Byte := []
  /-- keys drawn from the generator so far: the model's own field -/
  drawn : Nat := 0
  /-- key of the firmware pages, generated at each module reset (R466) -/
  fwMemKey : List Byte := []
  /-- retained contexts of a reset with RETAIN (R487): pages, key and step, by context -/
  retained : Tbl (List Nat × List Byte × BitVec 48) := []
deriving DecidableEq, Repr

def Vyano.ceil (v : Vyano) : Nat := v.ceilNv.read
def Vyano.svnMin (v : Vyano) : U16 := v.svnMinNv.read
def Vyano.ops (v : Vyano) : List (Option (List Byte)) := v.opsNv.read
def Vyano.ctrCeil (v : Vyano) : Nat := v.ctrCeilNv.read

/-! ### Power, clocks and start (R471 to R491) -/

/-- The outcome of one itinerary step as ITIN_STEP shows it. -/
structure Itin where
  now : BitVec 3 := 0
  prev : BitVec 3 := 0
  mode : BitVec 2 := 0
  attempts : BitVec 8 := 0
  detail : U16 := 0
deriving DecidableEq, Repr

/-- Whether the module is off, on its way up, or up (R475). -/
inductive PowerPhase where
  | standby
  | starting
  | resetting (retain : Bool)
  | stopped
  | up
deriving DecidableEq, Repr

structure Power where
  phase : PowerPhase := .standby
  pwrEn : Bool := false
  vin : U16 := 0
  pin : U16 := 0
  /-- the previous sample of the window watch (R472) -/
  lastVin : Nat := 0
  stop : BitVec 4 := 0
  start : BitVec 4 := 0
  starts : BitVec 24 := 0
  pinRetain : Bool := false
  cap : U16 := 4800
  capLevel : Nat := 0
  alert : BitVec 6 := 0
  itin : Tbl Itin := []
  itinTime : U32 := 0
  uvlo : U32 := 0
  ov : U32 := 0
  therm : U32 := 0
  capMs : U32 := 0
  faultL : Bool := false
  /-- start-stop, overvoltage or trip conditions that hold FAULT_L -/
  trip : Bool := false
  ga : BitVec 6 := 63
  /-- stacks and buses at a critical band or indication -/
  hot : BitVec 28 := 0
  /-- recovery setting of the itinerary record (R481) -/
  recovery : Bool := true
  /-- clear-itinerary of the last RESET -/
  clearItin : Bool := false
  /-- network recovery keeps trying (R481) -/
  recovering : Bool := false
  /-- the torus table in the configuration area (R482) -/
  stored : List Byte := []
  /-- the module number in force when that table was accepted -/
  storedOwn : BitVec 15 := 0
  /-- bodies of the firmware image in flash -/
  flash : List Byte := []
  /-- stacks that ran slow, and stacks and buses absent, in the record -/
  recSlow : BitVec 12 := 0
  recNoStack : BitVec 12 := 0
  recNoBus : U16 := 0
  regionPll : Tbl (BitVec 2) := []
  /-- tiles retired since the last cold start, by region -/
  retiredIn : Tbl Nat := []
  /-- spare tiles, as region × 4 + spare, that will fail the tile self-test when they are mapped (R15): physical faults, the
  model's own field -/
  badSpares : List Nat := []
  /-- tiles, channels and links marked by SPARE_OVERRIDE -/
  marks : List Nat := []
  /-- a RESET command's context or tile part waiting to begin (R485) -/
  resetCtx : Option Nat := none
deriving DecidableEq, Repr

/-! ### Fleet test (R494 to R513) -/

/-- A failure signature record (R505) as the store holds it. -/
structure SigRec where
  num : Nat
  /-- originating module -/
  own : Nat
  acked : Bool := false
  serial : List Byte := []
  /-- kind, region, index, sub -/
  unit : List Int := []
  /-- package, number, security version, repetition -/
  pattern : List Nat := []
  /-- row, column, expected, observed -/
  cells : List (Nat × Nat × List Byte × List Byte) := []
  total : Nat := 0
  /-- core_mv, temp_c, clock_khz, v_margin, clk_margin -/
  conditions : List Int := []
  firmware : List Byte := []
  trigger : Nat := 0
  outcome : Nat := 0
deriving DecidableEq, Repr

/-- What a fleet test run covers, by the parameters of R500 or the selection of FT_TRIG (R503): margins, repetitions, time
limit (0 for a run that a trigger starts), regions, buses, links, pattern entries. -/
structure RunSel where
  volt : Nat := 0
  clk : Nat := 0
  reps : Nat := 1
  limit : Nat := 0
  regions : BitVec 12 := 0xFFF
  buses : U16 := 0
  links : U32 := 0
  patterns : U64 := 0xFFFFFFFFFFFFFFFF
deriving DecidableEq, Repr

/-- A fleet test run in progress: number, package, trigger code, the context it halted, what it covers. -/
structure FtRun where
  num : Nat
  pkg : Nat
  trigger : Nat
  ctx : Option Nat
  sel : RunSel
deriving DecidableEq, Repr

structure Fleet where
  st : BitVec 2 := 0
  pkg : BitVec 8 := 0
  trigger : BitVec 3 := 0
  trig : U32 := 0
  runs : U32 := 0
  fails : U32 := 0
  drop : U32 := 0
  nextRec : U32 := 0
  tileFaults : U32 := 0
  regionFaults : U32 := 0
  chipFaults : U32 := 0
  retired : U32 := 0
  recs : List SigRec := []
  /-- installed packages: number, security version, content -/
  pkgs : List (Nat × Nat × List Byte) := []
  run : Option FtRun := none
  runNo : Nat := 0
  /-- the 1149.1 instruction selected (R509) -/
  tap : BitVec 8 := 1
deriving DecidableEq, Repr

/-- The chip block's own registers (R450). -/
structure Chip where
  locks : BitVec 6 := 0
  guardDrop : U32 := 0
  guardLast : U32 := 0
  policy : BitVec 3 := 4
  debugOn : Bool := false
  stepping : BitVec 8 := 0
  /-- engines that the debug port holds halted (R510) -/
  engHalt : BitVec 12 := 0
  /-- the halted unit that the debug port lets execute one instruction (R510) -/
  stepOnce : Option UnitId := none
deriving DecidableEq, Repr

end Sys2Proof.Machine
end

