-- ==== Sys2Proof/Config.lean ====
section
/-!
DEFINITION. What the specification leaves open as values: each is an opaque constant with no body, so nothing in Lean
can prove a value of it (log entries in notes/assumptions).
-/
namespace Sys2Proof.Config

/-- Bytes of a page that was freed by CTX_DESTROY and belongs to a new context (R467: undefined), and of internal
structures whose layout is not given: by a number the state counts and the address.
[DEDUCED, log 8; DESIGN CHOICE, log 12] -/
opaque freeByte : Nat → Nat → BitVec 8

/-- A fresh unconstrained word: by the value of the state's own counter. [DESIGN CHOICE, log 12] -/
opaque freeWord : Nat → BitVec 64

/-- The value of a transcendental EWU function whose enclosure the model's precision does not decide: by function code
and operand. [DESIGN CHOICE, log 12; DEDUCED, log 30] -/
opaque freeFn : Nat → Machine.FVal → Machine.FRes

/-- Whether a held request of another module has waited longer than FAB_TIMEOUT at a context boundary: by the state's own
counter, the requester and the tag. [DESIGN CHOICE, log 107] -/
opaque heldLong : Nat → Nat → Nat → Bool

/-- The body of an event whose bytes the specification does not lay out, by its kind and its fields (R434).
[DESIGN CHOICE, log 11] -/
opaque eventBody : Nat → List (BitVec 64) → List (BitVec 8)

/-- Where in its stack's firmware pages an engine keeps the copy of a request block that R336 passes the address of: by
region, in units of 64 bytes. [DESIGN CHOICE, log 106] -/
opaque callCopy : Nat → Nat

/-! ### Cryptographic primitives (R452): named by their standards, not modelled inside -/

/-- KMAC256: key, input, output bits, customisation. [DESIGN CHOICE, log 13] -/
opaque kmac : List Byte → List Byte → Nat → List Byte → List Byte
/-- SHAKE256 with 64-byte output. [DESIGN CHOICE, log 13] -/
opaque shake : List Byte → List Byte
/-- AES-256-GCM: key, nonce, additional data, plaintext; the result ends with the 16-byte tag.
[DESIGN CHOICE, log 13] -/
opaque gcmSeal : List Byte → List Byte → List Byte → List Byte → List Byte
/-- AES-256-GCM opened: none where authentication fails. [DESIGN CHOICE, log 13] -/
opaque gcmOpen : List Byte → List Byte → List Byte → List Byte → Option (List Byte)
/-- AES-256-GCM opened with a 96-bit tag (R305). [DESIGN CHOICE, log 13] -/
opaque gcmOpenShort : List Byte → List Byte → List Byte → List Byte → Option (List Byte)
/-- XMSS^MT verification: public key, message, signature. [DESIGN CHOICE, log 13] -/
opaque xmssVerify : List Byte → List Byte → List Byte → Bool
/-- The identity key's signature: index, message. [DESIGN CHOICE, log 13] -/
opaque xmssSign : Nat → List Byte → List Byte
/-- ML-DSA-87 verification: public key, message, signature. [DESIGN CHOICE, log 13] -/
opaque mldsaVerify : List Byte → List Byte → List Byte → Bool
/-- ML-KEM-1024 encapsulation key and shared secret of a decapsulation key. [DESIGN CHOICE, log 13] -/
opaque mlkemKey : List Byte → List Byte
/-- [DESIGN CHOICE, log 13] -/
opaque mlkemDecap : List Byte → List Byte → List Byte
/-- ML-KEM-1024 encapsulation with given coins: ciphertext and shared secret. [DESIGN CHOICE, log 13] -/
opaque mlkemEncap : List Byte → List Byte → List Byte × List Byte
/-- XTS-AES-256 of one data unit of 16 bytes (R466): key, tweak, plaintext. [DESIGN CHOICE, log 13] -/
opaque xtsSeal : List Byte → Nat → BitVec 128 → BitVec 128
/-- XTS-AES-256 opened: key, tweak, stored bits. [DESIGN CHOICE, log 13] -/
opaque xtsOpen : List Byte → Nat → BitVec 128 → BitVec 128
/-- Random bits of the root's generator: number of the draw, bytes. [DESIGN CHOICE, log 13] -/
opaque random : Nat → Nat → List Byte

/-! ### The firmware image and its window (R432, R459): named without their layout -/

/-- The fields of a firmware image's 256-byte header; none where it is no image's. [DESIGN CHOICE, log 14] -/
opaque fwHeader : List Byte → Option Machine.FwHeader
/-- First local address of the firmware load window, and its size in bytes. [DESIGN CHOICE, log 14] -/
opaque windowBase : Nat
/-- [DESIGN CHOICE, log 14] -/
opaque windowSize : Nat

/-! ### The Derrick's kernels: algorithms named without their order of operations (R239, R247) -/

/-- Bytes of an environment block beyond its output record, in units of 64 (R235: internal), by bodies, nq, nv, rows.
[DESIGN CHOICE, log 36] -/
opaque drkStateUnits : Nat → Nat → Nat → Nat → Nat
/-- The articulated-body pivots of a solve that forms them, as formed (R253). [DESIGN CHOICE, log 36] -/
opaque drkBodyPivots : Machine.DrkIn → List Int
/-- The mass-matrix pivots, by the articulated-body pivots in use. [DESIGN CHOICE, log 36] -/
opaque drkMassPivots : Machine.DrkIn → List Int → List Int
/-- What precedes the first iteration, by the pivots in use of both sources. [DESIGN CHOICE, log 36] -/
opaque drkPrep : Machine.DrkIn → List Int → List Int → Machine.DrkPrep
/-- Finishing a solve, by its input, the pivots in use and the last iterate. [DESIGN CHOICE, log 36] -/
opaque drkFin : Machine.DrkIn → List Int → List Int → List Int → Machine.DrkFin
/-- The adjoint of the last iterate of a tape entry's solve, by its seeds (R259). [DESIGN CHOICE, log 36] -/
opaque drkAdjStart : Machine.Work → Tbl Int → List Int
/-- The adjoints of a tape entry's solve, by its seeds, the adjoint of the guess and those of every row's residual (R259).
[DESIGN CHOICE, log 36] -/
opaque drkAdjoint : Machine.Work → Tbl Int → List Int → List (List Int) → Machine.DrkFin
/-- A byte of a tape entry and of an environment's state, whose inner layouts are not given (R235, R258).
[DESIGN CHOICE, log 36] -/
opaque drkTapeByte : Machine.TapeEntry → Nat → Byte
/-- [DESIGN CHOICE, log 36] -/
opaque drkStateByte : Machine.DrkEnv → Nat → Byte

end Sys2Proof.Config
end

