-- ==== Sys2Proof/Machine/Block.lean ====
section
/-!
DEFINITION. Everything the specification gives the module as state, without the queue of waiting commands.
-/
namespace Sys2Proof.Machine

/-- [DESIGN CHOICE, log 11] -/
structure Block where
  geo : Geo := {}
  ctxs : Tbl Ctx := []
  /-- the running context of R467 -/
  running : Option Nat := none
  /-- units of the running context, by SYS.UNIT, at which a wake is pending (R125) -/
  wakes : List Nat := []
  /-- a forced drain of the running context waits for issued instructions to retire (R160) -/
  draining : Bool := false
  /-- unit images by context × 2^16 + SYS.UNIT (R136) -/
  units : Tbl UnitImg := []
  tiles : Tbl TileHw := []
  /-- memory, by local address; tile SRAM of context c at (c + 1) × 2^49 + local address (R136) -/
  mem : List Host.Cell := []
  /-- pages whose unwritten bytes are undefined (R467), with the number of the destruction that left them so -/
  stale : Tbl Nat := []
  /-- physical errors in stored code words, by memory key ÷ 16: what a read receives differs by it from the word the
  encoder made (R266, R267); the model's own field -/
  memErr : Tbl (BitVec 144) := []
  /-- owner of each page of 2 MiB (R291) -/
  pages : Tbl Nat := []
  mcs : Tbl Mc := []
  ct : Ct := {}
  fab : Fab := {}
  sessions : Tbl Session := []
  /-- the module's event number (R434) -/
  eventNo : Nat := 0
  /-- the common part of each register block, by base offset ÷ 0x1_0000 -/
  blks : Tbl BlkCommon := []
  /-- latched high words of 64-bit counters (R132), by the high word's control offset ÷ 4 -/
  latches : Tbl U32 := []
  /-- CHIP_EVENT (R450) -/
  chipEvent : U32 := 0
  regionFault : BitVec 12 := 0
  drks : Tbl Drk := []
  rcks : Tbl Rck := []
  links : Tbl Link := []
  torus : Torus := {}
  house : House := {}
  hp : HostPort := {}
  vy : Vyano := {}
  pw : Power := {}
  ft : Fleet := {}
  chip : Chip := {}
  /-- the context that ran last since module reset (R467) -/
  lastRan : Nat := 15
  /-- number of the next remote operation: the model's own field -/
  opNext : Nat := 0
  /-- counter behind the free values: the model's own field -/
  freeCtr : Nat := 0
  egress : List Out := []
deriving DecidableEq, Repr

end Sys2Proof.Machine
end

