-- ==== Sys2Proof/Machine/Frames.lean ====
section
/-!
DEFINITION. Frames of a session with their keys (R421, R462), and the fragments that carry them and signature records to
another module (R353, R360, R435).
-/
namespace Sys2Proof.Machine

/-- The ASCII bytes of a label. -/
def ascii (x : String) : List Byte := x.toList.map fun ch => BitVec.ofNat 8 ch.toNat

/-! ### Keys (R462) -/

/-- [DEDUCED, log 50] -/
def kdf (z : List Byte) (label : List Byte) : List Byte := Config.kmac z label 256 (ascii "ZTM-T32 KDF")

def digit (c : Nat) : List Byte := [BitVec.ofNat 8 (48 + c)]

/-- Label of the frame key of a channel and direction. -/
def frameLabel (toHost ack : Bool) (ch : Nat) : List Byte :=
  ascii (if toHost then "M2H " else "H2M ") ++ (if ack then ascii "ACK " else []) ++ digit ch

/-- [DEDUCED, log 50] -/
def frameKey (z : List Byte) (toHost ack : Bool) (ch : Nat) : List Byte := kdf z (frameLabel toHost ack ch)
def frameSalt (z : List Byte) (toHost ack : Bool) (ch : Nat) : List Byte :=
  (kdf z (frameLabel toHost ack ch ++ ascii " SALT")).take 4

/-! ### Frames -/

/-- The transport header (R421). -/
def transportHeader (ch flags len session seq ack : Nat) : List Byte :=
  leBytes 2 0x545A ++ leBytes 1 1 ++ leBytes 1 ch ++ leBytes 2 flags ++ leBytes 2 len ++ leBytes 8 session ++
  leBytes 8 seq ++ leBytes 8 ack

/-- A protected frame of the module. -/
def sealedFrame (z : List Byte) (session ch seq ack : Nat) (payload : List Byte) : List Byte :=
  let h := transportHeader ch 1 payload.length session seq ack
  h ++ Config.gcmSeal (frameKey z true false ch) (frameSalt z true false ch ++ leBytes 8 seq) h payload

/-! ### Members of the house (R351) -/

/-- House and member index of this module. -/
def houseIndex (b : Block) : Nat × Nat :=
  let n := (b.torus.places.findIdx fun p => p == some b.geo.own.toNat)
  if b.torus.valid then (n / b.torus.houseSize, n % b.torus.houseSize) else (0, 0)

/-- Logical index of a module number; none where it has no place. -/
def placeOf (b : Block) (m : Nat) : Option Nat := b.torus.places.findIdx? (· == some m)

def houseOf (b : Block) (m : Nat) : Option Nat := (placeOf b m).map (· / b.torus.houseSize)

/-- Live modules of a house, by member index. -/
def houseMembers (b : Block) (h : Nat) : List (Nat × Nat) :=
  let hs := b.torus.houseSize
  (List.range hs).filterMap fun j =>
    if h * hs + j < b.torus.places.length then
      match b.torus.places.getD (h * hs + j) none with
      | some m => if b.house.gone.contains m then none else some (j, m)
      | none => none
    else none

/-- A live mask of a list of member indices. -/
def maskOf (l : List Nat) : U64 := l.foldl (fun x j => x ||| (1#64 <<< j)) 0

/-- The live members of the own house, as its keeper sees them. -/
def liveMask (b : Block) : U64 := maskOf ((houseMembers b (houseIndex b).1).map Prod.fst)

/-! ### Fragments (R360) -/

/-- A message that restates the sender's state to a module (R353): its HM.SEQ acknowledges the last fragment received
from that module. -/
def stateMsg (b : Block) (kind dst : Nat) : HouseMsg :=
  { kind := kind, house := (houseIndex b).1, term := b.house.term, epoch := b.torus.epoch, subject := 0,
    seq := BitVec.ofNat 16 (tget b.house.got 0 dst),
    live := if b.house.isKeeper then liveMask b else b.house.live, dead := 0, body := [] }

/-- Cut bytes into RELAY or SIG fragments of 32 bytes. [DEDUCED, log 62] -/
def fragments : Nat → List Byte → List (List Byte)
  | 0, _ => []
  | n + 1, x => if x.length ≤ 32 then [x] else x.take 32 :: fragments n (x.drop 32)

/-- Fragment numbers run from 1 to 65 535 and then from 1 again; 0 acknowledges nothing. [DEDUCED, log 62] -/
def nextNumber (n : Nat) : Nat := n % 65535 + 1

/-- The fragment to repeat to a module: the oldest one not acknowledged. [DEDUCED, log 62] -/
def nextFragment (b : Block) (dst : Nat) : Option HouseMsg := (b.house.outbox.find? fun e => e.1 == dst).map Prod.snd

/-- Number the fragments of a unit from the last number sent. -/
def numberFragments (b : Block) (kind dst len : Nat) : Nat → List (List Byte) → List (Nat × HouseMsg)
  | _, [] => []
  | n, x :: r =>
    (dst, { stateMsg b kind dst with
              subject := BitVec.ofNat 15 len, seq := BitVec.ofNat 16 (nextNumber n), body := x }) ::
      numberFragments b kind dst 0 (nextNumber n) r

/-- Queue bytes for a module as RELAY (0x0A) or SIG (0x0B) fragments: each repeats every beat until it is acknowledged
(R360). HM.SUBJECT holds the length of the unit in its first fragment, and 0 in the others. -/
def enqueue (b : Block) (kind dst : Nat) (x : List Byte) : Block :=
  let ms := numberFragments b kind dst x.length (tget b.house.numbered 0 dst) (fragments (x.length / 32 + 1) x)
  let last := match ms.getLast? with
    | some e => e.2.seq.toNat
    | none => tget b.house.numbered 0 dst
  { b with house := { b.house with outbox := b.house.outbox ++ ms, numbered := tput b.house.numbered 0 dst last } }

end Sys2Proof.Machine
end

