-- ==== Sys2Proof/Machine/Ops.lean ====
section
/-!
DEFINITION. The named operations over units, contexts and memory that every family shares: which context a unit runs
in, register access (R135), counters, memory and its address map (R289 to R292), events (R434), taking an exception
(R156, R158) and the return from one (R157).
-/
namespace Sys2Proof.Machine

/-! ### Units and contexts -/

/-- SYS.UNIT of R151. -/
def sysUnit : UnitId → Nat
  | .tile t => 16 * t.val
  | .reckoner r => 16 * r.val + 1
  | .derrick r => 16 * r.val + 2
  | .engine r => 16 * r.val + 3

def regionOf : UnitId → Nat
  | .tile t => t.val / 96
  | .reckoner r => r.val
  | .derrick r => r.val
  | .engine r => r.val

def isTile : UnitId → Bool
  | .tile _ => true | _ => false

def unitKey (c : Nat) (u : UnitId) : Nat := c * 65536 + sysUnit u

/-- The image of unit `u` in context `c`. -/
def img (b : Block) (c : Nat) (u : UnitId) : UnitImg := tget b.units {} (unitKey c u)

def setImg (b : Block) (c : Nat) (u : UnitId) (i : UnitImg) : Block :=
  { b with units := tput b.units {} (unitKey c u) i }

def tileHw (b : Block) (t : Nat) : TileHw := tget b.tiles {} t
def setTileHw (b : Block) (t : Nat) (h : TileHw) : Block := { b with tiles := tput b.tiles {} t h }
def mcOf (b : Block) (k : Nat) : Mc := tget b.mcs {} k
def setMc (b : Block) (k : Nat) (m : Mc) : Block := { b with mcs := tput b.mcs {} k m }

/-- A resident context, or an empty one where none is resident under the number. -/
def ctxOf (b : Block) (c : Nat) : Ctx := tget b.ctxs {} c
def setCtx (b : Block) (c : Nat) (x : Ctx) : Block := { b with ctxs := tins b.ctxs c x }
def resident (b : Block) (c : Nat) : Bool := (tlook b.ctxs c).isSome

/-- Tiles GEO.TILES gives region `k`. -/
def tilesIn (b : Block) (k : Nat) : Nat := b.geo.tiles.getD k 0

def tilePresent (b : Block) (t : Nat) : Bool := decide (t % 96 < tilesIn b (t / 96)) && decide (t < 1152)

def drkOf (b : Block) (k : Nat) : Drk := tget b.drks {} k
def setDrk (b : Block) (k : Nat) (x : Drk) : Block := { b with drks := tput b.drks {} k x }
def rckOf (b : Block) (k : Nat) : Rck := tget b.rcks {} k
def setRck (b : Block) (k : Nat) (x : Rck) : Block := { b with rcks := tput b.rcks {} k x }
/-- Link k at reset serves direction k ÷ 4 (R312, R325). -/
def linkReset (k : Nat) : Link := { dir := BitVec.ofNat 3 (k / 4) }
def linkOf (b : Block) (k : Nat) : Link := tget b.links (linkReset k) k
def setLink (b : Block) (k : Nat) (x : Link) : Block := { b with links := tput b.links (linkReset k) k x }

/-- The region's PLL has locked and its clocks run (R23, R478). -/
def clocked (b : Block) (k : Nat) : Bool := tget b.pw.regionPll 0 k == 2

/-- The unit is halted by its control register, or by the debug port. [DEDUCED, log 92] -/
def heldHalted (b : Block) : UnitId → Bool
  | .tile t => (tileHw b t.val).halt
  | .derrick r => (drkOf b r.val).halt
  | .reckoner r => (rckOf b r.val).halt
  | .engine r => b.chip.engHalt.getLsbD r.val

/-- The unit's hardware is present, clocked and not faulted (R129, R478). -/
def hwPresent (b : Block) : UnitId → Bool
  | .tile t => clocked b (t.val / 96) && tilePresent b t.val && !(tileHw b t.val).faulted
  | .derrick r => clocked b r.val && b.geo.derricks.getLsbD r.val && (drkOf b r.val).fault == 0
  | .reckoner r => clocked b r.val && b.geo.regions.getLsbD r.val && (rckOf b r.val).fault == 0
  | .engine r => clocked b r.val && b.geo.regions.getLsbD r.val

/-- The unit can execute: present, and not halted unless the debug port steps it (R129, R131, R263, R386, R510). -/
def hwRuns (b : Block) (u : UnitId) : Bool := hwPresent b u && (!heldHalted b u || b.chip.stepOnce == some u)

/-- The unit is about to execute an instruction of its own program: it runs, and an engine program has not reached its
return address (R336). A unit that runs a built-in program executes that program's instructions and no other (R162). -/
def atInstr (i : UnitImg) : Bool := i.run == .running && !i.builtin && i.ret != some i.pc

/-- Context `c` may execute: it is runnable, the module is not fenced (R324), and a replay has the reference record of
its step (R406). [DESIGN CHOICE, log 5] -/
def mayRun (b : Block) (c : Nat) : Bool :=
  (ctxOf b c).st == .runnable && (ctxOf b c).phase != .refWait && !b.fab.fenced

/-- A unit of context `c` may begin an instruction: the context may execute, and no drain stops its units at their
boundaries (R160). -/
def mayBegin (b : Block) (c : Nat) : Bool := mayRun b c && !b.draining

/-- The context in whose program unit `u` can execute an instruction now. [DESIGN CHOICE, log 5] -/
def execCtx (b : Block) (u : UnitId) : Option Nat :=
  match b.running with
  | none => none
  | some c =>
    if mayBegin b c && atInstr (img b c u) && hwRuns b u then some c else none

/-- The context whose built-in program unit `u` can go on with now (R162). [DESIGN CHOICE, log 99] -/
def builtCtx (b : Block) (u : UnitId) : Option Nat :=
  match b.running with
  | none => none
  | some c =>
    if mayBegin b c && (img b c u).run == .running && (img b c u).builtin && hwRuns b u then some c else none

/-- The context in which unit `u` waits, and for what. A unit that is halted completes the instruction it is in: it stops at
the next boundary (R131, R263, R386). [DESIGN CHOICE, log 5] -/
def waitCtx (b : Block) (u : UnitId) : Option (Nat × WaitKind × U64) :=
  match b.running with
  | none => none
  | some c =>
    match (img b c u).run with
    | .waiting k w => if mayRun b c && hwPresent b u then some (c, k, w) else none
    | _ => none

/-- s[r]; s0 reads as zero (R135). -/
def sreg (i : UnitImg) (r : BitVec 5) : U64 := if r = 0 then 0 else i.s[r.toFin]

/-- Write s[r]; a write to s0 is discarded (R135). -/
def setS (i : UnitImg) (r : BitVec 5) (x : U64) : UnitImg :=
  if r = 0 then i else { i with s := i.s.set r.toNat x r.isLt }

def freg (i : UnitImg) (r : BitVec 5) : U64 := i.f[r.toFin]
def setF (i : UnitImg) (r : BitVec 5) (x : U64) : UnitImg := { i with f := i.f.set r.toNat x r.isLt }
def vreg (i : UnitImg) (r : BitVec 5) : BitVec 128 := i.v[r.toFin]
def setV (i : UnitImg) (r : BitVec 5) (x : BitVec 128) : UnitImg := { i with v := i.v.set r.toNat x r.isLt }
def treg (i : UnitImg) (r : BitVec 4) : BitVec 256 := i.t[r.toFin]
def setT (i : UnitImg) (r : BitVec 4) (x : BitVec 256) : UnitImg := { i with t := i.t.set r.toNat x r.isLt }

/-- Count arithmetic events in a unit's context event counters (R31, R132). -/
def cntAdd (n : Cnt) (e : Ev) : Cnt :=
  { n with
    sat := satAdd n.sat e.sat, nangen := satAdd n.nangen e.nangen, wloss := satAdd n.wloss e.wloss,
    sunder := satAdd n.sunder e.sunder, ssat := satAdd n.ssat e.ssat, first := satAdd n.first e.first,
    clamp := satAdd n.clamp e.clamp }

def countEv (i : UnitImg) (e : Ev) : UnitImg := { i with cnt := cntAdd i.cnt e }

/-- The next instruction in program order; a built-in program shows no address (R162). -/
def nextPc (i : UnitImg) : UnitImg := if i.builtin then i else { i with pc := i.pc + 8 }

/-- Retire with image `i`: the pc advances and the unit runs on. -/
def retire (b : Block) (c : Nat) (u : UnitId) (i : UnitImg) : Block :=
  setImg b c u { nextPc i with run := .running }

/-- Leave the unit waiting with the instruction word. -/
def park (b : Block) (c : Nat) (u : UnitId) (i : UnitImg) (k : WaitKind) (w : U64) : Block :=
  setImg b c u { i with run := .waiting k w }

/-! ### Counters of register blocks -/

def blkOf (b : Block) (k : Nat) : BlkCommon := tget b.blks {} k
def setBlk (b : Block) (k : Nat) (x : BlkCommon) : Block := { b with blks := tput b.blks {} k x }

/-- Count clamps in a block's CLAMP_COUNT (R447); CHIP_EVENT.CLAMP is set (R450). -/
def blkClamp (b : Block) (k n : Nat) : Block :=
  if n = 0 then b
  else { setBlk b k { blkOf b k with clamps := satAdd (blkOf b k).clamps n } with chipEvent := b.chipEvent ||| 4 }

/-- Offset of a local address in its space: the tier, the tile windows and control space each begin at a multiple of 2^40
(R289). -/
def spaceOff (l : Nat) : Nat := l % 2 ^ 40

/-- The register block that holds control address `a`, by (a - 0x1F00_0000_0000) ÷ 0x1_0000 (R437). -/
def blkIndex (a : Nat) : Nat := spaceOff a / 0x10000

/-! ### Memory -/

/-- The module number of a fabric address (R289). -/
def faModule (a : U64) : BitVec 15 := a.extractLsb' 49 15
/-- The local address of a fabric address. -/
def faLocal (a : U64) : Nat := a.toNat % 2 ^ 49
/-- The fabric address of a local address of this module. -/
def ownAddr (b : Block) (l : Nat) : U64 := BitVec.ofNat 64 (b.geo.own.toNat * 2 ^ 49 + l % 2 ^ 49)

def sramBase : Nat := 0x100000000000
def ctlBase : Nat := 0x1F0000000000

/-- The rows of the local map of R289. -/
inductive Space where
  | stack (k : Nat)
  | tier
  | window (t off : Nat)
  | control
  | gap
deriving DecidableEq, Repr

def spaceOf (l : Nat) : Space :=
  if l < 0xC000000000 then .stack (l / 2 ^ 36)
  else if 0x10000000000 ≤ l ∧ l < 0x20000000000 then .tier
  else if sramBase ≤ l ∧ l < sramBase + 1152 * 0x200000 then
    .window (spaceOff l / 0x200000) (spaceOff l % 0x200000)
  else if ctlBase ≤ l ∧ l < 0x1F0104800000 then .control
  else .gap

/-- The line of a stack's local address within its stack (R270). -/
def stackLine (l : Nat) : Nat := l % 2 ^ 36 / 256

/-- The logical channel that holds a stack's local address: L[6:0] xor L[13:7] xor L[20:14] xor L[27:21] (R270). -/
def logicalChan (l : Nat) : Nat :=
  let n := stackLine l
  (n % 128) ^^^ (n / 128 % 128) ^^^ (n / 16384 % 128) ^^^ (n / 2097152 % 128)

/-- Its channel-local line (R270). -/
def logicalLine (l : Nat) : Nat := stackLine l / 128

/-- The buses present, ascending (R284). -/
def presentBuses (b : Block) : List Nat := (List.range 16).filter fun k => b.geo.capBuses.getLsbD k

/-- The bus that holds a tier address, and its bus-local line (R284). -/
def busOf (b : Block) (l : Nat) : Nat :=
  (presentBuses b).getD ((l - 0x10000000000) / 256 % (presentBuses b).length) 0
def busLine (b : Block) (l : Nat) : Nat := (l - 0x10000000000) / 256 / (presentBuses b).length

def isControl (l : Nat) : Bool := match spaceOf l with | .control => true | _ => false

def popcount (w n : Nat) : Nat := ((List.range w).filter fun i => n.testBit i).length

/-- A stack or tier address names memory of this module (R284, R289). -/
def memPresent (b : Block) (l : Nat) : Bool :=
  match spaceOf l with
  | .stack k => b.geo.stackMask.getLsbD k
  | .tier => decide (l < 0x10000000000 + popcount 16 b.geo.capBuses.toNat * 2 ^ 36)
  | _ => false

def pageOf (l : Nat) : Nat := l / 0x200000

/-- Owner recorded for a page of the save area: firmware, on behalf of context c. [DESIGN CHOICE, log 71] -/
def saveOwner (c : Nat) : Nat := 16 + c

/-- Context `c` owns the page of local address `l` (R291). [DESIGN CHOICE, log 71] -/
def owns (b : Block) (c l : Nat) : Bool := memPresent b l && tlook b.pages (pageOf l) = some c

/-- Where an access by context `c` to a fabric address goes (R292). -/
inductive Where where
  | mem (key : Nat)
  | ctl (l : Nat)
  | remote
  | bad
deriving DecidableEq, Repr

/-- The memory key of tile SRAM offset `o` of tile `t` in context `c`. [DEDUCED, log 93] -/
def sramKey (c t o : Nat) : Nat := (c + 1) * 2 ^ 49 + sramBase + t * 0x200000 + o

/-- Where engine k's copy of the request block lies that it calls a program with: in the firmware pages of its stack.
[DESIGN CHOICE, log 106] -/
def callCopy (k : Nat) : Nat := (k + 1) * 2 ^ 36 - 512 * 2 ^ 20 + Config.callCopy k % (250 * 2 ^ 14) * 64

/-- The address lies in the copy of the request block of an engine program of context c that has not returned (R336). -/
def inCopy (b : Block) (c l : Nat) : Bool :=
  (List.range 12).any fun k =>
    (img b c (.engine (Fin.ofNat 12 k))).ret.isSome && (decide (callCopy k ≤ l) && decide (l < callCopy k + 64))

def localWhere (b : Block) (c l : Nat) : Where :=
  match spaceOf l with
  | .stack _ => if owns b c l || inCopy b c l then .mem l else .bad
  | .tier => if owns b c l then .mem l else .bad
  | .window t o => if tilePresent b t && decide (o < 0x180000) then .mem (sramKey c t o) else .bad
  | .control => .ctl l
  | .gap => .bad

def whereIs (b : Block) (c : Nat) (a : U64) : Where :=
  if faModule a = b.geo.own then localWhere b c (faLocal a) else .remote

/-- What a byte that memory does not list reads as: zero, or an undefined value where its page was freed by a
destruction and given to another context (R467). [DESIGN CHOICE, log 7; DEDUCED, log 8] -/
def unlisted (b : Block) (key : Nat) : Byte :=
  match tlook b.stale (pageOf key) with
  | some n => Config.freeByte n key
  | none => 0

/-- One byte of memory. [DESIGN CHOICE, log 7] -/
def rdKey (b : Block) (key : Nat) : Byte :=
  match tlook b.mem key with
  | some x => x
  | none => unlisted b key

/-- Write one byte, keeping the canonical form. -/
def wrKey (b : Block) (key : Nat) (x : Byte) : Block :=
  match tlook b.stale (pageOf key) with
  | some _ => { b with mem := tins b.mem key x }
  | none => { b with mem := tput b.mem 0 key x }

def wrList (b : Block) (key : Nat) : List Byte → Block
  | [] => b
  | x :: r => wrList (wrKey b key x) (key + 1) r

/-- The accumulation cache holds the seam slot of a stack's key, so that the stack's own word serves no access (R279). -/
def cached (b : Block) (key : Nat) : Bool :=
  match spaceOf key with
  | .stack k => (mcOf b k).cache.any fun e => e.2.slot == key % 2 ^ 36 / 64
  | _ => false

/-- A physical error is gone from a code word that a write of [key, key + n) covers whole and that reaches it (R274). -/
def dropErr (b : Block) (key n : Nat) : Block :=
  { b with memErr := b.memErr.filter fun e =>
      !(decide (key ≤ e.1 * 16) && decide (e.1 * 16 + 16 ≤ key + n)) || cached b (e.1 * 16) }

/-- The memory key that a unit's counter watch is armed on: the word its waiting WAITC names (R125, R205). -/
def watchKey (b : Block) (c : Nat) (i : UnitImg) : Option Nat :=
  match i.run with
  | .waiting .counter w =>
    match localWhere b c (faLocal (sreg i (w.extractLsb' 42 5)) / 8 * 8) with
    | .mem k => some k
    | _ => none
  | _ => none

/-- The unit of an image key of context `c` watches a byte of [key, key + n). -/
def watches (b : Block) (c key n : Nat) (e : Nat × UnitImg) : Bool :=
  e.1 / 65536 == c && match watchKey b c e.2 with
    | some k => decide (k < key + n) && decide (key < k + 8)
    | none => false

/-- A write or an add of [key, key + n) sends a wake to every unit of the running context that watches it; the wake is
pending until the unit takes it (R125, R275, R295). -/
def sendWakes (b : Block) (key n : Nat) : Block :=
  match b.running with
  | none => b
  | some c =>
    let hit := (b.units.filter (watches b c key n)).map fun e => e.1 % 65536
    { b with wakes := b.wakes ++ hit.filter fun u => !b.wakes.contains u }

/-- Write consecutive bytes: what is stored, errors written over, and watches woken. -/
def wrKeys (b : Block) (key : Nat) (x : List Byte) : Block :=
  sendWakes (wrList (dropErr b key x.length) key x) key x.length

def rdKeys (b : Block) (key n : Nat) : List Byte := (List.range n).map fun j => rdKey b (key + j)

/-- Memory's canonical form: addresses strictly rising, and a listed zero only where an unlisted byte is undefined. -/
abbrev Memory.wf (b : Block) : Prop :=
  TSorted b.mem ∧ ∀ e ∈ b.mem, e.2 = 0 → (tlook b.stale (pageOf e.1)).isSome

/-- [DEDUCED, log 93] -/
def rdSram (b : Block) (c t o n : Nat) : List Byte :=
  (List.range n).map fun j => if o + j < 0x180000 then rdKey b (sramKey c t (o + j)) else 0

/-! ### The Derrick's queue area -/

/-- Where place n of stack k's queue area lies: below the staging area and the house page (R229, R271). -/
def queueBase (k n : Nat) : Nat := (k + 1) * 2 ^ 36 - 262 * 2 ^ 20 + n * 2 ^ 20

/-- Batches that the queue area holds: the queue's, and those of current rounds whose records are not applied. -/
def stored (d : Drk) : List Batch :=
  d.queue ++ d.ctx.flatMap fun e => match e.2.cur with
    | some r => if r.applied then [] else r.batches
    | none => []

/-- The context whose batch lies at offset o of stack k. -/
def queueCtx (b : Block) (k o : Nat) : Option Nat :=
  if queueBase 0 0 ≤ o ∧ o < queueBase 0 256 then
    ((stored (drkOf b k)).find? fun x => x.place == (o - queueBase 0 0) / 2 ^ 20).map fun x => x.ctx
  else none

/-! ### Events -/

/-- A hardware counter in units of 2^16. -/
def bump16 (x : U32) (low : Nat) : U32 × Nat := (satAdd x ((low + 1) / 65536), (low + 1) % 65536)

/-- The host reaches the module through its own port: the link is up (R436). -/
def cabled (b : Block) : Bool := decide (2 ≤ b.hp.link.toNat) && !b.hp.disable

/-- A frame that the cabled port sends is counted in HP_TX (R436). -/
def countTx (b : Block) : Block :=
  if cabled b then
    let n := bump16 b.hp.tx b.hp.txLow
    { b with hp := { b.hp with tx := n.1, txLow := n.2 } }
  else b

/-- The body of an event: its bytes where the specification lays them out, else bytes that its fields alone decide.
[DESIGN CHOICE, log 11] -/
def eventBody (e : Event) : List Byte := if e.raw.isEmpty then Config.eventBody e.kind e.body else e.raw

/-- The payload of an event: its 16-byte head, whose byte 3 is reserved, and its body (R434). -/
def eventPayload (n lost : Nat) (e : Event) : List Byte :=
  leBytes 2 e.kind ++ leBytes 1 e.ctx ++ leBytes 1 0 ++ leBytes 4 lost ++ leBytes 8 n ++ eventBody e

/-- Where the frames of a session go (R420). -/
def hostAddr (b : Block) (id : Nat) : Option HostAddr := (tlook b.sessions id).bind Session.addr

/-- Hand an event's frame, the channel's `seq`th, to the port; where the port is not cabled, to the keeper's relay, whose
fragments leave with the beat (R352, R360, R435). -/
def eventFrame (b : Block) (id seq : Nat) (z : List Byte) (v : EventSent) : Block :=
  let x := sealedFrame z id 1 seq v.ack (eventPayload v.no v.lost v.event)
  let b1 := { b with egress := b.egress ++ [.event id v.no v.lost v.event] }
  if cabled b then countTx { b1 with egress := b1.egress ++ [.frame id 1 (hostAddr b id) x] }
  else if b.torus.valid then enqueue b1 0x0A b.geo.keeper.toNat x
  else b1

/-- Queue an event for one session; a full queue drops it and counts it (R434). -/
def queueEvent (b : Block) (id n : Nat) (e : Event) : Block :=
  match tlook b.sessions id with
  | none => b
  | some x =>
    if x.events.length ≥ 256 then { b with sessions := tins b.sessions id { x with lost := x.lost + 1 } }
    else
      let ch := x.chan.getD 1 {}
      let v : EventSent := { no := n, lost := x.lost, ack := ch.rxNext, event := e }
      eventFrame { b with
        sessions := tins b.sessions id { x with
          events := x.events ++ [v], lost := 0, chan := x.chan.set 1 { ch with txNext := ch.txNext + 1, ackDue := 0 } } }
        id ch.txNext x.z v

/-- The sessions an event goes to: a context's goes to its session, a module event to every open session (R434), the
fault of a confidential context to the operator's sessions (R468). -/
def eventTo (b : Block) (e : Event) : List Nat :=
  if e.ctx < 16 then
    if e.kind = 1 && (ctxOf b e.ctx).confidential then
      (b.sessions.filter fun s => s.2.role == .operator).map Prod.fst
    else [(ctxOf b e.ctx).session]
  else b.sessions.map Prod.fst

/-- Send an event (R434). -/
def sendEvent (b : Block) (e : Event) : Block :=
  let n := b.eventNo
  (eventTo b e).foldl (fun x id => queueEvent x id n e) { b with eventNo := n + 1 }

/-- Halt a context on this module. -/
def haltCtx (b : Block) (c : Nat) (st : CtxSt) : Block :=
  match tlook b.ctxs c with
  | none => b
  | some x =>
    if b.running = some c then { setCtx b c { x with st := st } with running := none, lastRan := c }
    else setCtx b c { x with st := st }

/-! ### Exceptions -/

def builtinPc : U64 := 0xFFFFFFFFFFFFFFF8

/-- Take an exception (R156), or raise a context fault when there is no handler to take it: a fault that reaches the chip
and is counted there (R10, R158, R492). [DEDUCED, log 89] -/
def takeExc (b : Block) (c : Nat) (u : UnitId) (cause : Nat) (addr inst : U64) : Block :=
  let i := img b c u
  let pc := if i.builtin then builtinPc else i.pc
  let j := { i with rbuf := [], rbad := false, xpc := pc, xcause := BitVec.ofNat 4 cause, xaddr := addr, xinst := inst }
  if i.xvec = 0 || i.handler || i.builtin then
    -- of a confidential context the event carries XCAUSE only (R469)
    let full := if (ctxOf b c).confidential then (0 : U64) else -1
    let b1 := { b with ft := { b.ft with chipFaults := satAdd b.ft.chipFaults 1 } }
    sendEvent (haltCtx (setImg b1 c u { j with run := .halted }) c .haltedFault)
      { kind := 1, ctx := c,
        body := [BitVec.ofNat 64 (sysUnit u) &&& full, BitVec.ofNat 64 cause, pc &&& full, addr &&& full] }
  else setImg b c u { j with handler := true, pc := i.xvec, run := .running }

/-- Return from an exception (R157): resume at XPC, or behind it. -/
def leaveHandler (i : UnitImg) (skip : Bool) : UnitImg :=
  { i with handler := false, pc := if skip then i.xpc + 8 else i.xpc, run := .running }

/-- The unit's pc lies within its context's program image (R163); built-in programs are not fetched.
[DESIGN CHOICE, log 4] -/
def fetchOk (b : Block) (c : Nat) (i : UnitImg) : Bool :=
  i.builtin ||
    (decide ((ctxOf b c).image.toNat ≤ i.pc.toNat) &&
      decide (i.pc.toNat + 8 ≤ (ctxOf b c).image.toNat + (ctxOf b c).imgSize))

/-- A word nothing constrains. [DESIGN CHOICE, log 11; DESIGN CHOICE, log 12] -/
def freshWord (b : Block) : U64 × Block := (Config.freeWord b.freeCtr, { b with freeCtr := b.freeCtr + 1 })

/-- An instruction of unit `u`: nothing when the unit cannot execute; cause 2 when its pc lies outside the image
(XINST is then an undefined word); cause 1 when the word is illegal (R139); otherwise its effect.
[DESIGN CHOICE, log 4; DESIGN CHOICE, log 5; DESIGN CHOICE, log 17] -/
def issue (b : Block) (u : UnitId) (word : U64) (legal : Bool) (eff : Nat → UnitImg → Block) : Block :=
  match execCtx b u with
  | none => b
  | some c =>
    let i := img b c u
    if fetchOk b c i then
      if legal then eff c i else takeExc b c u 1 0 word
    else
      let w := freshWord b
      takeExc w.2 c u 2 i.pc w.1

/-- An instruction of a unit that its built-in program may hold too: `own` is what the built-in program does with it where
it is that program's next, and leaves the block alone where it is not. [DESIGN CHOICE, log 99] -/
def issueOr (b : Block) (u : UnitId) (word : U64) (legal : Bool) (own : Nat → UnitImg → Block)
    (eff : Nat → UnitImg → Block) : Block :=
  match builtCtx b u with
  | some c => own c (img b c u)
  | none => issue b u word legal eff

end Sys2Proof.Machine
end

