-- ==== Sys2Proof/Machine/Operands.lean ====
section
/-!
DEFINITION. The operand fields of the instruction word (R137 to R146, R164 to R166, R193) and which words are legal on
which unit (R133, R139). `ops` is operand bits [51:0]; class and operation are the command's own.
-/
namespace Sys2Proof.Machine

/-- The instruction word of a class, an operation and operands (R137). [DESIGN CHOICE, log 4] -/
def mkWord (cls op : Nat) (ops : Ops) : U64 := BitVec.ofNat 6 cls ++ BitVec.ofNat 6 op ++ ops

def fd (o : Ops) : BitVec 5 := o.extractLsb' 47 5
def fa (o : Ops) : BitVec 5 := o.extractLsb' 42 5
def fb (o : Ops) : BitVec 5 := o.extractLsb' 37 5
def fc (o : Ops) : BitVec 5 := o.extractLsb' 32 5
def fe (o : Ops) : BitVec 5 := o.extractLsb' 27 5
def ft1 (o : Ops) : BitVec 4 := o.extractLsb' 48 4
def ft2 (o : Ops) : BitVec 4 := o.extractLsb' 44 4
def ft3 (o : Ops) : BitVec 4 := o.extractLsb' 40 4
def fs1 (o : Ops) : BitVec 5 := o.extractLsb' 35 5
def fs2 (o : Ops) : BitVec 5 := o.extractLsb' 30 5
def fs3 (o : Ops) : BitVec 5 := o.extractLsb' 25 5
def fs4 (o : Ops) : BitVec 5 := o.extractLsb' 20 5

/-- Bits [lo + n - 1 : lo] of the operands as a number. -/
def bits (o : Ops) (lo n : Nat) : Nat := (o.extractLsb' lo n).toNat
def bit (o : Ops) (i : Nat) : Bool := o.getLsbD i

/-- The signed 32-bit offset of [31:0]. -/
def off32 (o : Ops) : U64 := (o.extractLsb' 0 32).signExtend 64
def off24 (o : Ops) : U64 := (o.extractLsb' 0 24).signExtend 64
def imm16 (o : Ops) : U64 := (o.extractLsb' 0 16).signExtend 64
def imm42 (o : Ops) : U64 := (o.extractLsb' 0 42).signExtend 64

/-- The rounding mode of a code. -/
def modeOf (c : Nat) : RMode := if c = 0 then .nearest else if c = 1 then .zero else .stoch

/-- No bit outside the fields (lo, width) listed is set: the reserved bits of R139. -/
def onlyFields (o : Ops) (l : List (Nat × Nat)) : Bool :=
  (List.range 52).all fun i => !o.getLsbD i || l.any fun f => decide (f.1 ≤ i) && decide (i < f.1 + f.2)

/-- What a class accepts (R133): kinds of unit. -/
inductive Accept where
  | all
  | tile
  | notEngine
  | reckoner
  | derrick
deriving DecidableEq, Repr

def accepts : Accept → UnitId → Bool
  | .all, _ => true
  | .tile, u => isTile u
  | .notEngine, .engine _ => false
  | .notEngine, _ => true
  | .reckoner, .reckoner _ => true
  | .reckoner, _ => false
  | .derrick, .derrick _ => true
  | .derrick, _ => false

def fldD : Nat × Nat := (47, 5)
def fldA : Nat × Nat := (42, 5)
def fldB : Nat × Nat := (37, 5)
def fldC : Nat × Nat := (32, 5)
def fldE : Nat × Nat := (27, 5)
def fldT1 : Nat × Nat := (48, 4)
def fldT2 : Nat × Nat := (44, 4)
def fldT3 : Nat × Nat := (40, 4)
def fldS1 : Nat × Nat := (35, 5)
def fldS2 : Nat × Nat := (30, 5)
def fldS3 : Nat × Nat := (25, 5)
def fldS4 : Nat × Nat := (20, 5)

/-- Register form of the integer class (R140); `form` is whether [17:16] is a field. -/
def legalInt (form : Bool) (o : Ops) : Bool :=
  onlyFields o ([fldD, fldA, fldB, (31, 1), (0, 16)] ++ if form then [(16, 2)] else []) &&
    (if bit o 31 then fb o == 0 else bits o 0 16 == 0)

def legalMul (o : Ops) : Bool := legalInt true o && bits o 16 2 != 3
def legalDiv (o : Ops) : Bool := legalInt true o
def legalAddi (_ : Ops) : Bool := true

/-- LD and ST (R142): file 2 names the t registers, which only a tile holds (R133). [PRESUMED, log 20] -/
def legalMem (u : UnitId) (o : Ops) : Bool :=
  onlyFields o [fldD, fldA, (40, 2), (38, 2), (37, 1), (0, 32)] && bits o 40 2 != 3 &&
    (bits o 40 2 == 0 || (bits o 38 2 == 3 && !bit o 37)) &&
    (bits o 40 2 != 2 || (isTile u && !bit o 51))

/-- ST has no use for x (R139, R142). -/
def legalStore (u : UnitId) (o : Ops) : Bool := legalMem u o && !bit o 37

def legalBranch (o : Ops) : Bool :=
  onlyFields o [fldA, fldB, (36, 1), (35, 1), (0, 32)] && !(bit o 36 && bit o 35)

def legalJal (o : Ops) : Bool := onlyFields o [fldD, (0, 32)]
def legalJalr (o : Ops) : Bool := onlyFields o [fldD, fldA, (0, 32)]

/-- Two-operand binary64 (R144). -/
def legalF2 (o : Ops) : Bool := onlyFields o [fldD, fldA, fldB, (30, 2)] && decide (bits o 30 2 ≤ 1)
/-- FMIN and FMAX: the mode field is ignored. [DEDUCED, log 21] -/
def legalFmm (o : Ops) : Bool := onlyFields o [fldD, fldA, fldB, (30, 2)]
def legalFsqrt (o : Ops) : Bool := onlyFields o [fldD, fldA, (30, 2)] && decide (bits o 30 2 ≤ 1)
def legalFma (o : Ops) : Bool := onlyFields o [fldD, fldA, fldB, fldC, (30, 2)] && decide (bits o 30 2 ≤ 1)

/-- FCVT (R145). -/
def legalFcvt (o : Ops) : Bool :=
  onlyFields o [fldD, fldA, (30, 2), (26, 4), (22, 4), (21, 1)] && decide (bits o 30 2 ≤ 1) &&
    decide (bits o 26 4 ≤ 5) &&
    (if bits o 26 4 ≥ 4 then decide (1 ≤ bits o 22 4) && decide (bits o 22 4 ≤ 6) else bits o 22 4 == 0) &&
    (bits o 26 4 == 4 || !bit o 21)

def sysReadable (n : Nat) : Bool :=
  [0x000, 0x001, 0x002, 0x003, 0x010, 0x011, 0x012, 0x020, 0x021, 0x022, 0x023, 0x024].contains n

def legalSysr (o : Ops) : Bool := onlyFields o [fldD, (0, 12)] && sysReadable (bits o 0 12)
/-- SYSW to the writable registers other than XRET. -/
def legalSysw (o : Ops) : Bool := onlyFields o [fldA, (0, 12)] && [0x011, 0x020].contains (bits o 0 12)
def legalXret (o : Ops) : Bool := onlyFields o [fldA, (0, 12)] && bits o 0 12 == 0x025

def legalVfmt (o : Ops) : Bool := decide (bits o 28 4 ≤ 5)
def legalVsetvl (o : Ops) : Bool := onlyFields o [fldD, fldA, (28, 4), (26, 2)] && legalVfmt o && bits o 26 2 == 0
def legalVld (o : Ops) : Bool :=
  onlyFields o [fldD, fldA, (28, 4), (26, 2), (25, 1), (0, 24)] && legalVfmt o && bits o 26 2 == 0
def legalVst (o : Ops) : Bool := onlyFields o [fldD, fldA, (28, 4), (26, 2), (0, 24)] && legalVfmt o && bits o 26 2 == 0
def legalV2 (o : Ops) : Bool :=
  onlyFields o [fldD, fldA, fldB, (28, 4), (26, 2)] && legalVfmt o && decide (bits o 26 2 ≤ 1)
/-- [DEDUCED, log 21] -/
def legalVmm (o : Ops) : Bool := onlyFields o [fldD, fldA, fldB, (28, 4), (26, 2)] && legalVfmt o
def legalVfma (o : Ops) : Bool :=
  onlyFields o [fldD, fldA, fldB, fldC, (28, 4), (26, 2)] && legalVfmt o && decide (bits o 26 2 ≤ 1)
def legalVred (o : Ops) : Bool :=
  onlyFields o [fldD, fldA, (28, 4), (26, 2), (24, 2)] && legalVfmt o && decide (bits o 26 2 ≤ 1) &&
    bits o 24 2 != 3

def modeOk (o : Ops) : Bool := bits o 0 2 != 3

/-- MMA (R166, R173). -/
def legalMma (o : Ops) : Bool :=
  onlyFields o [fldT1, fldT2, fldT3, fldS1, fldS2, fldS3, (0, 14)] && modeOk o &&
    (decide (bits o 5 2 < 2) || !bit o 4) && (bits o 5 2 == 3 || bits o 8 6 == 0)

def legalCvt (o : Ops) : Bool := onlyFields o [fldT1, fldT2, fldS1, fldS2, (0, 4)] && modeOk o && !bit o 3
/-- Roll form (R176). -/
def legalRoll (o : Ops) : Bool := onlyFields o [fldT1, (3, 1)] && bit o 3

def ewuTakesG (f : Nat) : Bool := [0x03, 0x04, 0x11, 0x12].contains f
def legalEwu (o : Ops) : Bool :=
  onlyFields o [fldT1, fldT2, fldS1, fldS2, fldS3, (0, 13)] && modeOk o && decide (bits o 3 5 ≤ 0x12) &&
    (ewuTakesG (bits o 3 5) || bits o 8 5 == 0)
def legalEwb (o : Ops) : Bool :=
  onlyFields o [fldT1, fldT2, fldT3, fldS1, fldS2, (0, 13)] && modeOk o && decide (bits o 3 4 ≤ 8) &&
    (bits o 3 4 == 6 || bits o 3 4 == 7 || bits o 8 5 == 0)
def legalTred (o : Ops) : Bool :=
  onlyFields o [fldT1, fldT2, fldS1, fldS2, fldS3, fldS4, (0, 9)] && modeOk o && bits o 3 3 != 7 &&
    bits o 6 2 != 3 && (decide (bits o 3 3 < 5) || bits o 6 2 == 0)
def legalMskp (o : Ops) : Bool :=
  onlyFields o [fldT2, fldS1, (0, 7)] && (bits o 0 2 == 2 || bits o 2 5 == 0)
def legalMskx (o : Ops) : Bool := onlyFields o [fldT1, fldT2, fldS1, fldS2, fldS3, (0, 13)] && modeOk o
def legalCopy (o : Ops) : Bool := onlyFields o [fldT1, fldT2]
def legalList (o : Ops) : Bool := onlyFields o [fldT1, fldT2, fldS1, fldS2]
def legalScta (o : Ops) : Bool := onlyFields o [fldT1, fldT2, fldS1, fldS2, fldS3, fldS4, (0, 3)] && modeOk o
def legalHpush (o : Ops) : Bool := onlyFields o [fldT2, fldS1]
def legalHpop (o : Ops) : Bool := onlyFields o [fldT1, fldS1]
def legalTieOpen (o : Ops) : Bool := onlyFields o [fldT1, fldS1, (0, 8)] && bits o 0 2 == 0
/-- TIE form 1 counts a use; the use count in S1 belongs to form 0 (R190). [DEDUCED, log 23] -/
def legalTieAdd (o : Ops) : Bool := onlyFields o [fldT2, fldS1, (0, 8)] && bits o 0 2 == 1
def legalTiex (o : Ops) : Bool := onlyFields o [fldS1, fldS2, (0, 9)] && modeOk o

def legalPut (o : Ops) : Bool := onlyFields o [fldA, fldB, fldC]
def legalGet (o : Ops) : Bool := onlyFields o [fldA, fldB, fldC, fldE]
/-- RADD (R195). -/
def legalRadd (o : Ops) : Bool :=
  onlyFields o [fldA, fldB, fldC, fldE, (0, 8)] && decide (bits o 0 4 ≤ 6) &&
    (if bits o 0 4 = 5 then decide (bits o 4 4 ≤ 6) else bits o 4 4 == 0)
def legalPuts (o : Ops) : Bool := onlyFields o [fldD, fldA, fldB, fldC, fldE]
def legalWaitc (o : Ops) : Bool := onlyFields o [fldD, fldA, fldB, fldC, (0, 2)] && bits o 0 2 != 3
def legalFence (o : Ops) : Bool := onlyFields o [fldD, fldA, (0, 1)]
def legalColl (o : Ops) : Bool := onlyFields o [fldD, fldA]
def legalDsub (o : Ops) : Bool := onlyFields o [fldD, fldA, fldB, fldC, fldE]
def legalDpoll (o : Ops) : Bool := onlyFields o [fldD, fldA, fldE]
def legalLgf (o : Ops) : Bool := onlyFields o [fldA, (0, 5)]
def legalStepend (o : Ops) : Bool := onlyFields o [fldD, fldA]
def legalDnext (o : Ops) : Bool := onlyFields o [fldD, fldC]
def legalNone (o : Ops) : Bool := onlyFields o []
def legalDfin (o : Ops) : Bool := onlyFields o [fldA]
def legalDstat (o : Ops) : Bool := onlyFields o [fldD]
def legalNormPartial (o : Ops) : Bool := onlyFields o [fldD, fldA, fldB, fldC, fldE] && !bit o 0
def legalNormTotal (o : Ops) : Bool := onlyFields o [fldD, fldA, fldE, (0, 1)] && bit o 0
def legalUpd (o : Ops) : Bool := onlyFields o [fldD, fldA, fldB, fldC, fldE]

end Sys2Proof.Machine
end

