-- ==== Sys2Proof/Machine/Control.lean ====
section
/-!
DEFINITION. The control class (R143): targets are not checked when the branch executes.
-/
namespace Sys2Proof.Machine

/-- Continue at an address; a built-in program shows none (R162). -/
def jumpTo (b : Block) (c : Nat) (u : UnitId) (i : UnitImg) (t : U64) : Block :=
  setImg b c u { i with pc := if i.builtin then i.pc else t, run := .running }

/-- The target of a relative branch: offset in words from the branch's own address. -/
def target (i : UnitImg) (o : Ops) : U64 := i.pc + 8 * off32 o

/-- A conditional branch: the integer test, unsigned test and binary64 predicate. -/
def branchEff (op : Nat) (si un : U64 → U64 → Bool) (fp : FVal → FVal → Bool) (u : UnitId) (o : Ops) (b : Block) :
    Block :=
  issue b u (mkWord 3 op o) (legalBranch o) fun c i =>
    let taken :=
      if bit o 36 then fp (fdecode .f64 (freg i (fa o)).toNat) (fdecode .f64 (freg i (fb o)).toNat)
      else if bit o 35 then un (sreg i (fa o)) (sreg i (fb o))
      else si (sreg i (fa o)) (sreg i (fb o))
    if taken then jumpTo b c u i (target i o) else retire b c u i

def beqEff := branchEff 0x00 (fun x y => x == y) (fun x y => x == y) fEq
def bneEff := branchEff 0x01 (fun x y => x != y) (fun x y => x != y) fun x y => !fEq x y
def bltEff := branchEff 0x02 BitVec.slt BitVec.ult fLt
def bgeEff := branchEff 0x03 (fun x y => !BitVec.slt x y) (fun x y => !BitVec.ult x y) fGe

def jalEff (u : UnitId) (o : Ops) (b : Block) : Block :=
  issue b u (mkWord 3 0x08 o) (legalJal o) fun c i =>
    jumpTo b c u (setS i (fd o) (i.pc + 8)) (target i o)

/-- The JALR target before bits [2:0] are cleared. -/
def jalrRaw (i : UnitImg) (o : Ops) : U64 := sreg i (fa o) + 8 * off32 o

/-- Clear bits [2:0], counting a clamp when one was set (R154). -/
def clearLow (n : Nat) (x : U64) : U64 × Nat :=
  (BitVec.ofNat 64 (x.toNat / 2 ^ n * 2 ^ n), if x.toNat % 2 ^ n = 0 then 0 else 1)

def jalrEff (u : UnitId) (o : Ops) (b : Block) : Block :=
  issue b u (mkWord 3 0x09 o) (legalJalr o) fun c i =>
    let t := clearLow 3 (jalrRaw i o)
    jumpTo b c u (countEv (setS i (fd o) (i.pc + 8)) (evClamps t.2)) t.1

end Sys2Proof.Machine
end

