-- ==== Sys2Proof/Machine/Ecc.lean ====
section
/-!
DEFINITION. The memory code over GF(16) (R266, R267).
-/
namespace Sys2Proof.Machine

abbrev Sym := BitVec 4

/-- Multiply by α modulo x^4 + x + 1. -/
def gfDouble (a : Sym) : Sym := (a <<< 1) ^^^ (if a.getLsbD 3 then 3#4 else 0#4)

def gfMul (a b : Sym) : Sym :=
  (if b.getLsbD 0 then a else 0) ^^^ (if b.getLsbD 1 then gfDouble a else 0) ^^^
    (if b.getLsbD 2 then gfDouble (gfDouble a) else 0) ^^^
    (if b.getLsbD 3 then gfDouble (gfDouble (gfDouble a)) else 0)

/-- A column: four field elements. -/
structure Col where
  a : Sym
  b : Sym
  c : Sym
  d : Sym
deriving DecidableEq, Repr

def colAdd (x y : Col) : Col := ⟨x.a ^^^ y.a, x.b ^^^ y.b, x.c ^^^ y.c, x.d ^^^ y.d⟩
def colScale (e : Sym) (x : Col) : Col := ⟨gfMul e x.a, gfMul e x.b, gfMul e x.c, gfMul e x.d⟩
def colZero : Col := ⟨0, 0, 0, 0⟩

/-- f(a, b) = a² + a × b + 0x8 × b². -/
def quadric (a b : Sym) : Sym := gfMul a a ^^^ gfMul a b ^^^ gfMul 8 (gfMul b b)

/-- The column h_i of symbol i (R266). -/
def codeCol (i : Nat) : Col :=
  if i < 32 then
    let a := BitVec.ofNat 4 (i % 16)
    let b := BitVec.ofNat 4 (2 + i / 16)
    ⟨1, a, b, quadric a b⟩
  else if i = 32 then ⟨1, 0, 0, 0⟩
  else if i = 33 then ⟨0, 0, 0, 1⟩
  else if i = 34 then ⟨1, 1, 0, 1⟩
  else ⟨1, 0, 1, 8⟩

def symbolOf (w : BitVec 144) (i : Nat) : Sym := w.extractLsb' (4 * i) 4

/-- Add e to symbol i of a word (R267). -/
def addSymbol (w : BitVec 144) (i : Nat) (e : Sym) : BitVec 144 := w ^^^ (e.setWidth 144 <<< (4 * i))

/-- The syndrome Σ c_i × h_i over the 36 symbols. -/
def syndrome (w : BitVec 144) : Col :=
  (List.range 36).foldl (fun s i => colAdd s (colScale (symbolOf w i) (codeCol i))) colZero

/-- The check bits the encoder chooses for 128 data bits: the syndrome of the whole word is zero (R266). -/
def eccCheck (data : BitVec 128) : BitVec 16 :=
  let s := syndrome (data.setWidth 144)
  let c34 := s.b
  let c35 := s.c
  let c32 := s.a ^^^ c34 ^^^ c35
  let c33 := s.d ^^^ c34 ^^^ gfMul 8 c35
  c35 ++ c34 ++ c33 ++ c32

def eccEncode (data : BitVec 128) : BitVec 144 := eccCheck data ++ data

/-- What the decoder finds (R267). -/
inductive Ecc where
  | clean
  | single (i : Nat) (e : Sym)
  | bad
deriving DecidableEq, Repr

def findSingle (s : Col) : Option (Nat × Sym) :=
  ((List.range 36).flatMap fun i => (List.range 15).map fun e => (i, BitVec.ofNat 4 (e + 1))).find?
    fun p => colScale p.2 (codeCol p.1) = s

def eccDecode (w : BitVec 144) : Ecc :=
  let s := syndrome w
  if s = colZero then .clean
  else match findSingle s with
    | some (i, e) => .single i e
    | none => .bad

end Sys2Proof.Machine
end

