-- ==== Sys2Proof/Machine/Table.lean ====
section
/-!
DEFINITION. The control page and the update table (R365 to R368, R377, R392), and where the built-in update program of a
Reckoner waits (R384).
-/
namespace Sys2Proof.Machine

/-- Local address of a context's lowest-addressed page (R392). -/
def controlPage (x : Ctx) : Nat :=
  match x.pages with
  | [] => 0
  | p :: r => (r.foldl min p) * 0x200000

def utBase (x : Ctx) : Nat := controlPage x + 0x10000
def grpBase (x : Ctx) (g : Nat) : Nat := utBase x + 0x100 + 128 * g

/-- n bytes of memory as a little-endian number. -/
def rdNat (b : Block) (a n : Nat) : Nat := leNat (rdKeys b a n)

def utValid (b : Block) (x : Ctx) : Bool := rdNat b (utBase x) 4 == 1
def utS0 (b : Block) (x : Ctx) : Nat := rdNat b (utBase x + 8) 6
def utSteps (b : Block) (x : Ctx) : Nat := rdNat b (utBase x + 0x10) 8
def utNormHome (b : Block) (x : Ctx) : Nat := rdNat b (utBase x + 0x18) 2
/-- UT.NORM_M, clamped (R365). -/
def utNormM (b : Block) (x : Ctx) : Nat × Nat :=
  let m := rdNat b (utBase x + 0x1A) 2
  if m = 0 then (1, 1) else if 32768 < m then (32768, 1) else (m, 0)
def utNormList (b : Block) (x : Ctx) (j : Nat) : Nat := rdNat b (rdNat b (utBase x + 0x20) 8 + 2 * j) 2
/-- Local address of a field of the norm block (R377). -/
def normField (b : Block) (x : Ctx) (o : Nat) : Nat := rdNat b (utBase x + 0x28) 8 + o
/-- Address and length of region k's shard list. -/
def shardList (b : Block) (x : Ctx) (k : Nat) : Nat × Nat :=
  (rdNat b (utBase x + 0x40 + 16 * k) 8, rdNat b (utBase x + 0x48 + 16 * k) 4)
def shardRec (b : Block) (x : Ctx) (k j : Nat) : Nat := rdNat b ((shardList b x k).1 + 8 * j) 8

def rckLoop (b : Block) (c k : Nat) : RckLoop := tget (rckOf b k).loops {} c

/-- The run step r = CTX.STEP − UT.S0 (R377). -/
def runStep (b : Block) (x : Ctx) : Nat := (x.step - BitVec.ofNat 48 (utS0 b x)).toNat

/-- The word a wait of the built-in program tests, by local address, and what it must reach. -/
def rckAwaits (b : Block) (c k : Nat) : Option (Nat × Nat) :=
  let x := ctxOf b c
  let l := rckLoop b c k
  let r := l.r.getD 0
  match l.pos with
  | .top => some (utBase x + 0x10, l.r.getD (runStep b x))
  | .counter j =>
    let a := shardRec b x k j
    some (rdNat b (a + 0x10) 8, (r + 1) * rdNat b (a + 4) 4)
  | .waitLocal => some (normField b x 0x180, 12 * (r + 1))
  | .waitHome => some (normField b x 0x188, (utNormM b x).1 * (r + 1))
  | .waitTotal => some (normField b x 0x190, r + 1)
  | _ => none

/-- The built-in program waits in WAITC, on a condition not met or on a valid table (R204, R384). -/
def rckWaits (b : Block) (c k : Nat) : Bool :=
  match rckAwaits b c k with
  | some w => decide (rdNat b w.1 8 < w.2) || ((rckLoop b c k).pos == .top && !utValid b (ctxOf b c))
  | none => false

end Sys2Proof.Machine
end

