-- ==== Sys2Proof/Machine/Regs.lean ====
section
/-!
DEFINITION. Reading the control space (R437 to R450): the value of every register of every block.
-/
namespace Sys2Proof.Machine

/-- The blocks of the register block map (R437). -/
inductive Blk where
  | chip
  | link (k : Nat)
  | hostPort
  | vyano
  | region (k : Nat)
  | mc (k : Nat)
  | reckoner (k : Nat)
  | derrick (k : Nat)
  | engine (k : Nat)
  | tile (t : Nat)
  | none
deriving DecidableEq, Repr

/-- The block at a control address, by its index (address − 0x1F00_0000_0000) ÷ 0x1_0000. -/
def blkAt (b : Block) (n : Nat) : Blk :=
  if n = 0 then .chip
  else if 0x80 ≤ n ∧ n < 0xA0 then .link (n - 0x80)
  else if n = 0xC0 then .hostPort
  else if n = 0xE0 then .vyano
  else if 0x100 ≤ n ∧ n < 0x1C0 then
    let k := (n - 0x100) / 16
    if n % 16 = 0 then .region k
    else if n % 16 = 1 then .mc k
    else if n % 16 = 2 then .reckoner k
    else if n % 16 = 3 then .derrick k
    else if n % 16 = 4 then .engine k
    else .none
  else if 0x10000 ≤ n ∧ n < 0x10480 then (if tilePresent b (n % 0x10000) then .tile (n % 0x10000) else .none)
  else .none

def ofBool (x : Bool) (i : Nat) : U32 := if x then 1#32 <<< i else 0
def fld {w : Nat} (x : BitVec w) (i : Nat) : U32 := x.setWidth 32 <<< i
def nfld (x i : Nat) : U32 := BitVec.ofNat 32 (x * 2 ^ i)
def loWord (x : U64) : U32 := x.setWidth 32
def hiWord (x : U64) : U32 := (x >>> 32).setWidth 32

/-- The counters of the running context's unit; zero when no context runs. -/
def liveImg (b : Block) (u : UnitId) : UnitImg := match b.running with | some c => img b c u | none => {}

/-! ### The geometry table (R20) -/

def geoBytes (b : Block) : List Byte :=
  let g := b.geo
  leBytes 4 1 ++ leBytes 4 g.generation.toNat ++ leBytes 2 g.own.toNat ++ leBytes 2 0 ++ leBytes 4 g.extent.toNat ++
  leBytes 4 g.coord.toNat ++ leBytes 2 g.regions.toNat ++ leBytes 2 g.stackMask.toNat ++
  ((List.range 12).map fun k => BitVec.ofNat 8 (tilesIn b k)) ++ leBytes 2 g.stackSlow.toNat ++
  leBytes 2 g.capBuses.toNat ++ leBytes 4 g.links.toNat ++ leBytes 2 g.derricks.toNat ++ leBytes 1 16 ++
  leBytes 1 b.ctxs.length ++ leBytes 4 1572864 ++ leBytes 4 262144 ++ leBytes 4 131072 ++ leBytes 4 65536 ++
  leBytes 2 64 ++ leBytes 1 g.houseSize.toNat ++ leBytes 1 g.remap.toNat ++ leBytes 2 g.keeper.toNat ++ leBytes 2 0 ++
  leBytes 4 1750000 ++ leBytes 52 0 ++ (g.dirLinks.flatMap fun m => leBytes 4 m.toNat) ++
  (List.range 16).map fun j => g.fwDigest.getD j 0

/-! ### Chip block -/

def runnableAny (b : Block) : Bool := b.ctxs.any fun e => e.2.st == .runnable

def region12 (k : Nat) : Fin 12 := Fin.ofNat 12 k
def tile1152 (t : Nat) : Fin 1152 := Fin.ofNat 1152 t

/-- The unit of a SYS.UNIT number. -/
def unitOf (n : Nat) : UnitId :=
  if n % 16 = 1 then .reckoner (region12 (n / 16))
  else if n % 16 = 2 then .derrick (region12 (n / 16))
  else if n % 16 = 3 then .engine (region12 (n / 16))
  else .tile (tile1152 (n / 16))

/-- The unit's queue holds no work of the context (R204). -/
def noWork (b : Block) (c : Nat) : UnitId → Bool
  | .derrick r =>
    let d := drkOf b r.val
    !(d.queue.any fun x => x.ctx == c) && !(d.subs.any fun x => x.ctx == c) && (tget d.ctx {} c).cur.isNone
  | .engine r => (img b c (.engine r)).colls.isEmpty
  | .reckoner r => !(img b c (.reckoner r)).builtin || rckWaits b c r.val
  | .tile _ => true

/-- The unit is halted, by its control register too, or waiting: in WAITC, in DNEXT, or, running a built-in program, for
work (R204, R475). -/
def waits (b : Block) (c : Nat) (u : UnitId) : Bool :=
  match (img b c u).run with
  | .halted => true
  | .waiting .counter _ => true
  | .waiting .round _ => true
  | .waiting _ _ => false
  | .running => heldHalted b u || ((img b c u).builtin && noWork b c u)

/-- A unit of a runnable context has work: it is neither halted nor waiting (R475). [DEDUCED, log 48] -/
def working (b : Block) : Bool :=
  b.units.any fun e =>
    (ctxOf b (e.1 / 65536)).st == .runnable && !waits b (e.1 / 65536) (unitOf (e.1 % 65536))

def powerCode (b : Block) : Nat := if runnableAny b then (if working b then 3 else 2) else 1

/-- FAULT_L and the bits of VY_STATE (R470, R474). -/
def vyState (b : Block) : U32 :=
  ofBool b.vy.keyReady 0 ||| ofBool b.vy.exhausted 1 ||| ofBool b.vy.rngFault 2 |||
    nfld (b.vy.ops.filter Option.isSome).length 3

def itinWord (i : Itin) : U32 := fld i.now 0 ||| fld i.prev 3 ||| fld i.mode 6 ||| fld i.attempts 8 ||| fld i.detail 16

def houseState (b : Block) : U32 :=
  let h := houseIndex b
  ofBool b.house.isKeeper 0 ||| ofBool b.house.isFirst 1 ||| ofBool b.house.prepared 2 ||| nfld h.2 3 |||
    nfld (h.1 % 2 ^ 15) 9

def pick (l : List (Nat × U32)) (o : Nat) : U32 := (tlook l o).getD 0

/-- A 64-bit counter's word: the low word as it stands, or the latched high word (R132). -/
def cntWord (b : Block) (word : Nat) (high : Bool) (x : U64) : U32 :=
  if high then (tlook b.latches word).getD (hiWord x) else loWord x

/-- The 64-bit counters of a block by offset, as (base, values). -/
def cntAt (b : Block) (blk off base : Nat) (l : List U64) : Option U32 :=
  if base ≤ off ∧ off < base + 8 * l.length then
    some (cntWord b (blk * 0x4000 + off / 4) (decide ((off / 4) % 2 = 1)) (l.getD ((off - base) / 8) 0))
  else none

def perCtx (t : Tbl U64) : List U64 := (List.range 16).map fun c => tget t 0 c

def ctState (b : Block) : U32 := fld b.geo.capBuses 0 ||| fld b.ct.throttled 16

def chipRegs (b : Block) : List (Nat × U32) :=
  [(0x0000, 0x32 ||| fld b.chip.stepping 16),
   (0x0004, nfld (powerCode b) 0 ||| ofBool (b.ctxs.any fun e => e.2.confidential) 2 ||| ofBool b.chip.debugOn 3),
   (0x0008, b.chipEvent), (0x0014, fld b.chip.locks 0), (0x0018, b.chip.guardDrop), (0x001C, b.chip.guardLast),
   (0x0020, fld b.chip.policy 0), (0x0024, ~~~ fld b.chip.policy 0)]

def powerRegs (b : Block) : List (Nat × U32) :=
  [(0xB000, fld b.pw.vin 0 ||| fld b.pw.pin 16),
   (0xB004, fld b.pw.stop 0 ||| fld b.pw.start 4 ||| fld b.pw.starts 8), (0xB008, ofBool b.pw.pinRetain 0),
   (0xB00C, fld b.pw.cap 0), (0xB010, fld b.pw.alert 0), (0xB080, b.pw.itinTime), (0xB0C0, b.pw.uvlo),
   (0xB0C4, b.pw.ov), (0xB0C8, b.pw.therm), (0xB0CC, b.pw.capMs)] ++
  (List.range 9).map fun k => (0xB040 + 4 * k, itinWord (tget b.pw.itin {} k))

def fabRegs (b : Block) : List (Nat × U32) :=
  [(0xC000, ctState b), (0xC010, b.ct.corr), (0xC014, b.ct.uncorr), (0xC018, b.ct.rmw), (0xC01C, b.ct.scrubPass),
   (0xD000, ofBool b.fab.fenced 0), (0xD004, b.fab.timeout),
   (0xD008, nfld (b.fab.reqs.length + b.fab.quarantine.length) 0), (0xD010, b.fab.staleIn), (0xD014, b.fab.earlyIn),
   (0xD018, b.fab.staleOut), (0xD01C, b.fab.prot), (0xD020, b.fab.fencedIn), (0xD024, b.fab.noroute),
   (0xD028, b.fab.timeoutCnt), (0xD02C, b.fab.late), (0xD030, b.fab.heldDrop), (0xD034, b.fab.unreach)]

def houseRegs (b : Block) : List (Nat × U32) :=
  [(0xE000, houseState b), (0xE004, b.house.term), (0xE008, fld b.house.beat 0), (0xE00C, fld b.house.keeperTo 0),
   (0xE010, fld b.house.memberTo 0), (0xE014, fld b.house.probeTo 0), (0xE020, b.house.raises),
   (0xE024, b.house.successions), (0xE028, b.house.reports), (0xE02C, b.house.dropped), (0xE030, fld b.house.phase 0),
   (0xE034, b.house.remaps)]

def fleetRegs (b : Block) : List (Nat × U32) :=
  let f := b.ft
  [(0xF000, fld f.st 0 ||| fld f.pkg 2 ||| fld f.trigger 10), (0xF004, f.trig), (0xF008, f.runs), (0xF00C, f.fails),
   (0xF010, nfld f.recs.length 0 ||| nfld (f.recs.filter fun r => !r.acked).length 6), (0xF014, f.drop),
   (0xF018, f.nextRec), (0xF01C, f.tileFaults), (0xF020, f.regionFaults), (0xF024, f.chipFaults),
   (0xF028, f.retired)] ++
  ((List.range 4).filterMap fun p => match f.pkgs[p]? with
    | some x => some (0xF040 + 4 * p, nfld x.1 0 ||| nfld x.2.1 8 ||| ofBool true 24)
    | none => none)

def chipRead (b : Block) (o : Nat) : U32 :=
  if 0x8000 ≤ o ∧ o < 0x8100 then BitVec.ofNat 32 (leNat (((geoBytes b).drop (o - 0x8000)).take 4))
  else match cntAt b 0 o 0xC040 (perCtx b.ct.nangen) with
    | some x => x
    | none => pick (chipRegs b ++ powerRegs b ++ fabRegs b ++ houseRegs b ++ fleetRegs b) o

/-! ### Link, host port and Vyano blocks -/

def linkRead (b : Block) (k o : Nat) : U32 :=
  let l := linkOf b k
  pick ([(0x0000, nfld k 0 ||| fld l.dir 5 ||| nfld (k % 4) 8),
    (0x0004, fld l.st 0 ||| fld l.spared 4 ||| fld l.peer 8 ||| fld l.peerIdx 23),
    (0x0008, ofBool l.disable 0 ||| ofBool l.narrowEn 2), (0x000C, fld l.idle 0), (0x0040, l.corr), (0x0044, l.uncorr),
    (0x0048, l.authfail), (0x004C, l.retry), (0x0050, l.retrain), (0x0054, l.narrow), (0x0058, l.discard),
    (0x005C, l.badflit), (0x0060, l.tx), (0x0064, l.rx), (0x0100, fld l.pattern 0 ||| fld l.loop 3 ||| fld l.lanes 5),
    (0x0104, fld l.locked 0 ||| fld l.lost 9), (0x0180, l.bits), (0x0184, l.flitCorr), (0x0188, l.flitUncorr)] ++
    (List.range 9).map fun j => (0x0140 + 4 * j, tget l.errs 0 j)) o

def hpRead (b : Block) (o : Nat) : U32 :=
  let h := b.hp
  pick ([(0x0000, fld h.link 0 ||| nfld b.sessions.length 2 ||| ofBool h.ipv4 6),
    (0x0004, ofBool h.disable 0 ||| ofBool h.force800 1), (0x0008, fld h.sessionTo 0), (0x000C, fld h.retry 0),
    (0x0010, fld h.agreeRate 0), (0x0018, h.mac.setWidth 32), (0x001C, (h.mac >>> 32).setWidth 32),
    (0x0020, loWord h.lastCtr), (0x0024, hiWord h.lastCtr), (0x0040, h.rx), (0x0044, h.tx), (0x0048, h.dropLen),
    (0x004C, h.dropProto), (0x0050, h.dropIp), (0x0054, h.dropUdp), (0x0058, h.dropHdr), (0x005C, h.dropSession),
    (0x0060, h.dropAuth), (0x0064, h.dropSeq), (0x0068, h.cmdRefused), (0x006C, h.bulkRefused),
    (0x0070, h.sessionEnd), (0x0100, fld h.test 0)] ++
    (List.range 8).map fun j => (0x0140 + 4 * j, tget h.testErr 0 j)) o

def vyRead (b : Block) (o : Nat) : U32 :=
  let v := b.vy
  pick [(0x0000, 0x32), (0x0004, vyState b), (0x0010, nfld (v.next % 2 ^ 32) 0), (0x0014, nfld (v.next / 2 ^ 32 % 256) 0),
    (0x0018, nfld (v.ceil % 2 ^ 32) 0), (0x001C, nfld (v.ceil / 2 ^ 32 % 256) 0), (0x0020, fld v.svn 0 ||| fld v.svnMin 16),
    (0x0024, fld v.slotValid 0 ||| fld v.slotRevoked 4 ||| fld v.slotFw 8 ||| fld v.slotDev 12), (0x0040, v.signs),
    (0x0044, v.nvWrites), (0x0048, v.agreeFail), (0x004C, v.ctxKeys)] o

/-! ### Region blocks -/

def regionRead (b : Block) (k o : Nat) : U32 :=
  pick [(0x0000, nfld k 0),
    (0x0004, fld (tget b.pw.regionPll 0 k) 0 ||| nfld (tilesIn b k) 2 ||| ofBool (b.regionFault.getLsbD k) 9)] o

def mcRead (b : Block) (blk k o : Nat) : U32 :=
  let m := mcOf b k
  match cntAt b blk o 0x100 (perCtx m.nangen) with
  | some x => x
  | none =>
    pick [(0x0000, nfld k 0),
      (0x0004, fld m.stack 0 ||| ofBool m.selfRefresh 2 ||| fld m.band 3 ||| ofBool m.fault 6),
      (0x000C, fld m.b75 0 ||| fld m.b50 3 ||| fld m.b25 6 ||| fld m.level 9), (0x0010, fld m.idle 0),
      (0x0014, ofBool m.scrubEn 0 ||| fld m.scrubInt 16), (0x0018, m.spare), (0x001C, fld m.laneSpared 0),
      (0x0040, m.corr), (0x0044, m.uncorr), (0x0048, m.scrubPass), (0x004C, m.cacheMiss), (0x0050, m.cacheWb),
      (0x0054, m.throttle), (0x0058, m.srEntry), (0x005C, m.narrow), (0x0060, m.rmw)] o

def rckState (b : Block) (k : Nat) : Nat :=
  if !clocked b k then 0
  else if (rckOf b k).fault != 0 then 4
  else if (rckOf b k).halt then 1
  else match (liveImg b (.reckoner (region12 k))).run with
    | .halted => 1
    | .waiting _ _ => 2
    | .running => match b.running with
      | some c => if (img b c (.reckoner (region12 k))).builtin && rckWaits b c k then 2 else 3
      | none => 2

/-- [DEDUCED, log 78] -/
def rckRead (b : Block) (blk k o : Nat) : U32 :=
  let r := rckOf b k
  let n := (liveImg b (.reckoner (region12 k))).cnt
  let conf := b.ctxs.any fun e => e.2.confidential
  let d (j : Nat) : U32 := if conf then 0 else (r.last >>> (32 * j)).setWidth 32
  match cntAt b blk o 0x80 [n.sat, n.nangen, n.clamp, n.sunder, n.ssat, n.refuse, n.nonfin, n.skip] with
  | some x => x
  | none =>
    pick [(0x0000, nfld k 0),
      (0x0004, nfld (rckState b k) 0 ||| ofBool (match b.running with | some c => tget r.skip false c | none => false) 3),
      (0x0008, ofBool r.halt 0), (0x000C, fld r.fault 0), (0x0010, d 0), (0x0014, d 1), (0x0018, d 2), (0x001C, d 3),
      (0x0040, r.instr), (0x0044, r.elems), (0x0048, r.signals)] o

def drkState (b : Block) (k : Nat) : Nat :=
  if !clocked b k || !b.geo.derricks.getLsbD k then 0
  else if (drkOf b k).fault != 0 then 5
  else if (drkOf b k).halt then 1
  else match b.running with
    | none => 2
    | some c => match (tget (drkOf b k).ctx {} c).cur with
      | none => 2
      | some r => if r.applied then 4 else 3

def drkRead (b : Block) (blk k o : Nat) : U32 :=
  let d := drkOf b k
  let n := (liveImg b (.derrick (region12 k))).cnt
  match cntAt b blk o 0x80 [n.sat, n.nangen, n.clamp, n.dsat, n.pivot, n.solve] with
  | some x => x
  | none =>
    pick [(0x0000, nfld k 0 ||| ofBool (b.geo.derricks.getLsbD k) 4),
      (0x0004, nfld (drkState b k) 0 ||| nfld d.queue.length 3 ||| fld d.lastRound 12), (0x0008, ofBool d.halt 0),
      (0x000C, fld d.fault 0),
      (0x0010, match b.running with | some c => (tget d.ctx {} c).force | none => 0),
      (0x0040, d.roundsRun), (0x0044, d.solves), (0x0048, d.storeCorr), (0x004C, d.storeUncorr)] o

def engState (b : Block) (k : Nat) : Nat :=
  if !clocked b k || !b.geo.regions.getLsbD k then 0
  else match b.running with
    | none => 1
    | some c => if (img b c (.engine (region12 k))).colls.isEmpty then 2 else 3

def engRead (b : Block) (blk k o : Nat) : U32 :=
  let i := liveImg b (.engine (region12 k))
  match cntAt b blk o 0x80 [i.cnt.clamp] with
  | some x => x
  | none => pick [(0x0004, nfld (engState b k) 0 ||| nfld i.colls.length 3)] o

/-! ### Tile blocks (R131) -/

/-- [DEDUCED, log 35] -/
def tileState (b : Block) (t : Nat) : Nat :=
  let h := tileHw b t
  if !clocked b (t / 96) then 0
  else if h.faulted then 4
  else if h.selfTest then 5
  else if h.halt then 1
  else match (liveImg b (.tile (tile1152 t))).run with
    | .halted => 1
    | .waiting .counter _ => if h.gate && !b.wakes.contains (16 * t) then 3 else 2
    | _ => 2

/-- The armed counter word of a waiting WAITC: its address operand with the own module and low bits cleared. -/
def waitAddr (b : Block) (t : Nat) : U64 :=
  let i := liveImg b (.tile (tile1152 t))
  match i.run with
  | .waiting .counter w =>
    BitVec.ofNat 64 (b.geo.own.toNat * 2 ^ 49 + (sreg i ((w.extractLsb' 42 5))).toNat % 2 ^ 49 / 8 * 8)
  | _ => 0

def tileRead (b : Block) (blk t o : Nat) : U32 :=
  let h := tileHw b t
  let n := (liveImg b (.tile (tile1152 t))).cnt
  match cntAt b blk o 0x80 [n.sat, n.nangen, n.wloss, n.sunder, n.ssat, n.first, n.clamp] with
  | some x => x
  | none =>
    pick [(0x0000, nfld t 0 ||| nfld (t / 96) 12 ||| nfld (t % 96) 16),
      (0x0004, nfld (tileState b t) 0 ||| ofBool h.svuDown 3 ||| ofBool (b.wakes.contains (16 * t)) 4), (0x0008, ofBool h.halt 0),
      (0x000C, fld h.faultCause 0 ||| fld h.faultBank 4), (0x0010, loWord h.faultPc), (0x0014, hiWord h.faultPc),
      (0x0018, loWord (waitAddr b t)), (0x001C, hiWord (waitAddr b t)),
      (0x0020, ofBool h.gate 0 ||| ofBool h.svuHold 1 ||| ofBool h.scrub 2), (0x0040, h.residueRetry),
      (0x0044, h.sramCorr), (0x0048, h.bufCorr), (0x004C, h.uncorr), (0x0050, h.gateWake), (0x0054, h.svuWake),
      (0x0058, h.scrubPass), (0x005C, h.poolSpill)] o

/-! ### Any block -/

/-- The common registers (R438): UPD reads PENDING in bit 1. -/
def commonRead (b : Block) (blk o : Nat) : Option U32 :=
  let x := blkOf b blk
  if o = 0xFFF0 then some (fld x.group 0 ||| ofBool x.join 4)
  else if o = 0xFFF4 then some (ofBool x.pending 1)
  else if o = 0xFFF8 then some x.clamps
  else none

def blkRead (b : Block) (n o : Nat) : U32 :=
  match blkAt b n with
  | .none => 0
  | k => match commonRead b n o with
    | some x => x
    | none => match k with
      | .chip => chipRead b o
      | .link j => linkRead b j o
      | .hostPort => hpRead b o
      | .vyano => vyRead b o
      | .region j => regionRead b j o
      | .mc j => mcRead b n j o
      | .reckoner j => rckRead b n j o
      | .derrick j => drkRead b n j o
      | .engine j => engRead b n j o
      | .tile t => tileRead b n t o
      | .none => 0

/-- The register at a control address. [DESIGN CHOICE, log 16] -/
def ctlRead (b : Block) (l : Nat) : U32 := if isControl l then blkRead b (blkIndex l) (l % 0x10000) else 0

/-- One byte of control space. -/
def ctlByte (b : Block) (l : Nat) : Byte := (ctlRead b (l / 4 * 4)).extractLsb' (8 * (l % 4)) 8

/-- The 64-bit counter whose low word stands at a control address, if there is one (R132, R287, R288). -/
def counter64 (b : Block) (l : Nat) : Option U64 :=
  let n := blkIndex l
  let o := l % 0x10000
  let at_ (base : Nat) (xs : List U64) : Option U64 :=
    if base ≤ o ∧ o % 8 = 0 then xs[(o - base) / 8]? else none
  if isControl l then match blkAt b n with
  | .chip => at_ 0xC040 (perCtx b.ct.nangen)
  | .mc k => at_ 0x100 (perCtx (mcOf b k).nangen)
  | .tile t =>
    let x := (liveImg b (.tile (tile1152 t))).cnt
    at_ 0x80 [x.sat, x.nangen, x.wloss, x.sunder, x.ssat, x.first, x.clamp]
  | .reckoner k =>
    let x := (liveImg b (.reckoner (region12 k))).cnt
    at_ 0x80 [x.sat, x.nangen, x.clamp, x.sunder, x.ssat, x.refuse, x.nonfin, x.skip]
  | .derrick k =>
    let x := (liveImg b (.derrick (region12 k))).cnt
    at_ 0x80 [x.sat, x.nangen, x.clamp, x.dsat, x.pivot, x.solve]
  | .engine k => at_ 0x80 [(liveImg b (.engine (region12 k))).cnt.clamp]
  | _ => none
  else none

/-- A read of the low word of a 64-bit counter latches the high word (R132). -/
def latchLow (b : Block) (l : Nat) : Block :=
  match counter64 b l with
  | some x => { b with latches := tins b.latches (spaceOff l / 4 + 1) (hiWord x) }
  | none => b

/-- The latches a read of [l, l + n) in control space sets. -/
def latchReads (b : Block) (l n : Nat) : Block :=
  match spaceOf l with
  | .control => (List.range ((n + 3) / 4)).foldl (fun x j => latchLow x (l / 4 * 4 + 4 * j)) b
  | _ => b

end Sys2Proof.Machine
end

