-- ==== Sys2Proof/Machine/Access.lean ====
section
/-!
DEFINITION. Accesses of a unit to memory: which addresses are mapped (R110, R292), what a read meets (R104, R267,
R268), the memory controllers' counters (R274, R287), faults (R10, R129), and the accumulation cache (R278).
-/
namespace Sys2Proof.Machine

def addrAdd (a : U64) (n : Nat) : U64 := a + BitVec.ofNat 64 n

/-- The lowest failing address of an access of `n` bytes (R155 cause 3). [DEDUCED, log 18] -/
def badByte (b : Block) (c : Nat) (a : U64) (n : Nat) : Option U64 :=
  ((List.range n).map (addrAdd a)).find? fun x => whereIs b c x = .bad

/-- One byte as unit image `i` of context `c` reads it; a remote byte is one its requests have returned, else zero. -/
def readByte (b : Block) (c : Nat) (i : UnitImg) (a : U64) : Byte :=
  match whereIs b c a with
  | .mem k => rdKey b k
  | .ctl l => ctlByte b l
  | .remote => tget i.rbuf 0 a.toNat
  | .bad => 0

def readBytes (b : Block) (c : Nat) (i : UnitImg) (a : U64) (n : Nat) : List Byte :=
  (List.range n).map fun j => readByte b c i (addrAdd a j)

/-- Remote bytes of an access that no completed request has brought yet. -/
def missing (b : Block) (c : Nat) (i : UnitImg) (a : U64) (n : Nat) : Bool :=
  (List.range n).any fun j =>
    whereIs b c (addrAdd a j) = .remote && (tlook i.rbuf (addrAdd a j).toNat).isNone

/-! ### Faults -/

/-- A fault that reaches the chip halts the running context and sends an event (R10). `level` 1 is a tile, 2 a
region. [DEDUCED, log 89] -/
def chipFault (b : Block) (level unit cause : Nat) : Block :=
  let b1 := match b.running with
    | some c => haltCtx { b with ft := { b.ft with chipFaults := satAdd b.ft.chipFaults 1 } } c .haltedFault
    | none => b
  sendEvent b1 { kind := 2, ctx := (b.running.getD 0xFF), body := [BitVec.ofNat 64 level, BitVec.ofNat 64 unit,
    BitVec.ofNat 64 cause] }

/-- A tile fault (R129): the tile stops, records cause, bank and pc, and is marked for retirement (R15).
[DEDUCED, log 57] -/
def tileFault (b : Block) (t cause bank : Nat) (pc : U64) : Block :=
  let h := tileHw b t
  let b1 := setTileHw b t { h with faulted := true, retire := true, faultCause := BitVec.ofNat 4 cause,
                                   faultBank := BitVec.ofNat 5 bank, faultPc := pc,
                                   faultConf := match b.running with | some c => (ctxOf b c).confidential | none => false }
  chipFault { b1 with ft := { b1.ft with tileFaults := satAdd b1.ft.tileFaults 1 } } 1 t cause

/-- A region fault: 1 an uncorrectable stack error (R268), 2 a Derrick fault. [DEDUCED, log 57] -/
def regionFault (b : Block) (k cause : Nat) : Block :=
  chipFault { b with regionFault := b.regionFault ||| (1#12 <<< k),
                     ft := { b.ft with regionFaults := satAdd b.ft.regionFaults 1 } } 2 k cause

/-! ### Stored words -/

/-- The key that encrypts a code word of stacks and tier: its context's, that of the context whose batch the queue area
holds there, or firmware's own (R229, R276, R466). -/
def wordKey (b : Block) (w : Nat) : Option (List Byte) :=
  let own (q : Option Nat) : List Byte := match (tlook b.pages (pageOf (w * 16))).or q with
    | some c => (ctxOf b (c % 16)).memKey
    | none => b.vy.fwMemKey
  match spaceOf (w * 16) with
  | .stack k => some (own (queueCtx b k (w * 16 % 2 ^ 36)))
  | .tier => some (own none)
  | _ => none

/-- The 128 bits stored for code word `w`: encrypted in stacks and tier, the tweak being the local address ÷ 16 (R276,
R466). -/
def storedBits (b : Block) (w : Nat) : BitVec 128 :=
  let x := BitVec.ofNat 128 (leNat (rdKeys b (w * 16) 16))
  match wordKey b w with
  | some k => Config.xtsSeal k w x
  | none => x

/-- A word delivered with its stored bits changed by `d` stands so from then on; with none changed it is what it was. -/
def takeWord (b : Block) (w : Nat) (d : BitVec 128) : Block :=
  let b1 := { b with memErr := tdel b.memErr w }
  let x := storedBits b w ^^^ d
  if d = 0 then b1
  else wrList b1 (w * 16) (leBytes 16 (match wordKey b w with | some k => Config.xtsOpen k w x | none => x).toNat)

/-! ### The memory code on reads -/

/-- Code words of keys [key, key + n) that hold a physical error. -/
def errWords (b : Block) (key n : Nat) : Tbl (BitVec 144) :=
  b.memErr.filter fun e => n != 0 && decide (key / 16 ≤ e.1) && decide (e.1 * 16 < key + n)

/-- Those of them that an access reaches: a slot in the accumulation cache is served from there (R279). -/
def reachedErrs (b : Block) (key n : Nat) : Tbl (BitVec 144) := (errWords b key n).filter fun e => !cached b (e.1 * 16)

/-- Count a corrected or an uncorrectable code word where it was met (R104, R268, R286). -/
def countErr (b : Block) (key : Nat) (bad : Bool) : Block :=
  let l := key % 2 ^ 49
  match spaceOf l with
  | .stack k =>
    let m := mcOf b k
    setMc b k (if bad then { m with uncorr := satAdd m.uncorr 1, fault := true } else { m with corr := satAdd m.corr 1 })
  | .tier =>
    { b with ct := if bad then { b.ct with uncorr := satAdd b.ct.uncorr 1 } else { b.ct with corr := satAdd b.ct.corr 1 } }
  | .window t _ =>
    let h := tileHw b t
    setTileHw b t (if bad then { h with uncorr := satAdd h.uncorr 1 } else { h with sramCorr := satAdd h.sramCorr 1 })
  | _ => b

/-- Decode one faulty word by the error in it, since an encoded word's own syndrome is zero (R266, R267): taken as correct;
corrected by adding e to symbol i, counted and written back; or uncorrectable and counted. The first uncorrectable word is
answered by its key. -/
def readErr (x : Block × Option Nat) (w : Nat) (e : BitVec 144) : Block × Option Nat :=
  match eccDecode e with
  | .clean => (takeWord x.1 w (e.setWidth 128), x.2)
  | .single i s => (countErr (takeWord x.1 w ((addSymbol e i s).setWidth 128)) (w * 16) false, x.2)
  | .bad => (countErr x.1 (w * 16) true, x.2.or (some (w * 16)))

def readErrs (b : Block) (l : Tbl (BitVec 144)) : Block × Option Nat := l.foldl (fun x e => readErr x e.1 e.2) (b, none)

/-- What a patrol read of [key, key + n) meets: the stored words themselves. -/
def scrubRead (b : Block) (key n : Nat) : Block × Option Nat := readErrs b (errWords b key n)

/-- A write that covers code words in part reads them first, in stacks and in the capacity tier (R274, R286): what that
read meets. In tile SRAM such a write neither corrects nor reports an error its word holds; the next read meets it.
[DESIGN CHOICE, log 96] -/
def mergeRead (b : Block) (key n : Nat) : Block × Option Nat :=
  let part := (reachedErrs b key n).filter fun e => !(decide (key ≤ e.1 * 16) && decide (e.1 * 16 + 16 ≤ key + n))
  match spaceOf (key % 2 ^ 49) with
  | .stack _ => readErrs b part
  | .tier => readErrs b part
  | _ => (b, none)

/-- The fault that an uncorrectable word raises, by its key: of its region, of the chip for the capacity tier, of its tile
(R10, R104, R268, R286). [DEDUCED, log 57] -/
def memFault (b : Block) (key : Nat) : Block :=
  match spaceOf (key % 2 ^ 49) with
  | .stack k => regionFault b k 1
  | .tier => chipFault b 3 0 1
  | .window t off => tileFault b t 2 (off / 64 % 32) (liveImg b (.tile (Fin.ofNat 1152 t))).pc
  | _ => b

/-! ### The accumulation cache (R278, R279) -/

/-- The set of a slot index n = o[35:6]. -/
def cacheSet (n : Nat) : Nat := (n % 16384) ^^^ ((n / 16384) % 16384) ^^^ ((n / 2 ^ 28) % 4)

def setWays (m : Mc) (set : Nat) : List (Nat × Option CacheEntry) :=
  (List.range 16).map fun w => (set * 16 + w, tlook m.cache (set * 16 + w))

/-- The least recently used of the ways, a free way first. -/
def victim (ws : List (Nat × Option CacheEntry)) : Nat × Option CacheEntry :=
  ws.foldl (fun best w =>
    match best.2, w.2 with
    | none, _ => best
    | _, none => w
    | some x, some y => if y.used < x.used then w else best) (ws.headD (0, none))

/-- An access of [l, l + n) uses the cached slots it addresses; a write leaves them changed (R279). -/
def cacheUse (b : Block) (l n : Nat) (write : Bool) : Block :=
  match spaceOf l with
  | .stack k =>
    let m := mcOf b k
    let lo := l % 2 ^ 36 / 64
    let hi := (l % 2 ^ 36 + n - 1) / 64
    if m.cache.isEmpty || n = 0 then b
    else setMc b k { m with
      cache := m.cache.map fun e =>
        if lo ≤ e.2.slot ∧ e.2.slot ≤ hi then
          (e.1, { e.2 with dirty := e.2.dirty || write, used := m.cacheClock + 1 + (e.2.slot - lo) })
        else e
      cacheClock := m.cacheClock + 1 + (hi - lo) }
  | _ => b

/-- A changed slot written back to its stack is encoded afresh: errors its words held are written over (R278). -/
def writeBack (b : Block) (k slot : Nat) : Block :=
  { b with memErr := b.memErr.filter fun e => e.1 / 4 != k * 2 ^ 30 + slot }

/-- Bytes of slot `slot` of stack k. -/
def slotBytes (b : Block) (k slot : Nat) : List Byte := rdKeys b (k * 2 ^ 36 + slot * 64) 64

/-- Allocate the slot of local address l in its controller's cache, changed by what the add leaves in it, `held` being what
the slot held before: a miss is counted, and the least recently used way is written back when it has been changed (R278). -/
def cacheTouch (b : Block) (c l : Nat) (held : List Byte) : Block :=
  match spaceOf l with
  | .stack k =>
    let m := mcOf b k
    let n := (l % 2 ^ 36) / 64
    let ws := setWays m (cacheSet n)
    let now := m.cacheClock + 1
    let e : CacheEntry := { slot := n, ctx := c, dirty := true, used := now, stack := held }
    match ws.find? fun w => match w.2 with | some x => x.slot == n | none => false with
    | some w => setMc b k { m with
        cache := tins m.cache w.1 { e with stack := (match w.2 with | some x => x.stack | none => held) }
        cacheClock := now }
    | none =>
      let v := victim ws
      let back := match v.2 with | some x => x.dirty | none => false
      setMc (match v.2 with | some x => if x.dirty then writeBack b k x.slot else b | none => b) k { m with
        cache := tins m.cache v.1 e, cacheClock := now, cacheMiss := satAdd m.cacheMiss 1,
        cacheWb := satAdd m.cacheWb back.toNat }
  | _ => b

/-! ### Accesses of a memory controller -/

/-- The code words that a write of [l, l + n) covers in part and that the stack or the tier serves. -/
def partialWords (b : Block) (l n : Nat) : Nat :=
  let first := l / 16
  let last := (l + n - 1) / 16
  if n = 0 then 0
  else if first = last then (if l % 16 = 0 && n = 16 || cached b (16 * first) then 0 else 1)
  else (if l % 16 = 0 || cached b (16 * first) then 0 else 1) + (if (l + n) % 16 = 0 || cached b (16 * last) then 0 else 1)

/-- Count an access of a memory controller: MC_NARROW in units of 2^16, MC_RMW per merged code word (R274, R287). A stack in
self-refresh leaves it at its first request (R283). -/
def mcCount (b : Block) (l n : Nat) (write : Bool) : Block :=
  if n = 0 then b
  else match spaceOf l with
  | .stack k =>
    let m := mcOf b k
    let narrow := decide (l / 32 = (l + n - 1) / 32)
    let lo := m.narrowLow + narrow.toNat
    setMc b k { m with
      selfRefresh := false, narrowLow := lo % 65536, narrow := satAdd m.narrow (lo / 65536),
      rmw := satAdd m.rmw (if write then partialWords b l n else 0) }
  | .tier => { b with ct := { b.ct with rmw := satAdd b.ct.rmw (if write then partialWords b l n else 0) } }
  | _ => b

/-- A read of [key, key + n), at local address l: what it meets, an uncorrectable word by its key (R104, R268, R279). -/
def readMem (b : Block) (key l n : Nat) : Block × Option Nat :=
  let r := readErrs b (reachedErrs b key n)
  (cacheUse (mcCount r.1 l n false) l n false, r.2)

/-- Bytes written to memory, or the write refused by an uncorrectable word it would merge (R268, R274). -/
def writeMem (b : Block) (key l : Nat) (x : List Byte) : Block × Bool :=
  let r := mergeRead b key x.length
  let b1 := cacheUse (mcCount r.1 l x.length true) l x.length true
  match r.2 with
  | none => (wrKeys b1 key x, true)
  | some e => (memFault b1 e, false)

/-- Bytes read and replaced in one step (R275): the old bytes, or none where an uncorrectable word refuses it. -/
def updateMem (b : Block) (key l n : Nat) (f : List Byte → List Byte) : Block × Option (List Byte) :=
  let r := readErrs b (reachedErrs b key n)
  let b1 := cacheUse (mcCount r.1 l n true) l n true
  match r.2 with
  | none => let x := rdKeys b1 key n; (wrKeys b1 key (f x), some x)
  | some e => (memFault b1 e, none)

/-- Add to a 64-bit word (R194, R195). -/
def addWord (n : U64) (x : List Byte) : List Byte := leBytes 8 (BitVec.ofNat 64 (leNat x) + n).toNat

/-- Firmware's and the Reckoner's reads and writes of this module's memory at a local address pass through its controller
like any other. -/
def readOwn (b : Block) (l n : Nat) : (Block × Option Nat) × List Byte :=
  let r := readMem b l l n
  (r, rdKeys r.1 l n)

/-- The uncorrectable word that refuses a store of `n` bytes at a fabric address of this module, by its key. -/
def storeMet (b : Block) (c : Nat) (a : U64) (n : Nat) : Option Nat :=
  match whereIs b c a with
  | .mem k => (mergeRead b k n).2
  | _ => none

/-- Store bytes at a fabric address of this module that the access check has passed. -/
def storeOwn (b : Block) (c : Nat) (a : U64) (x : List Byte) : Block :=
  match whereIs b c a with
  | .mem k => (writeMem b k (faLocal a) x).1
  | .ctl l => blkClamp b (blkIndex l) 1
  | _ => b

end Sys2Proof.Machine
end

