-- ==== Sys2Proof/Machine/Wire.lean ====
section
/-!
DEFINITION. A flit on the wire (R300, R306): its eighteen code words, their symbols on the lanes of a link, and back.
-/
namespace Sys2Proof.Machine

/-- The eighteen code words that carry a flit's 288 content bytes (R266, R300). -/
def flitWords (x : List Byte) : List (BitVec 144) :=
  (List.range 18).map fun i => eccEncode (BitVec.ofNat 128 (leNat ((x.drop (16 * i)).take 16)))

/-- Wire symbol n: symbol n mod 36 of code word n ÷ 36 (R306). -/
def wireSymbol (ws : List (BitVec 144)) (n : Nat) : Sym := symbolOf (ws.getD (n / 36) 0) (n % 36)

/-- The lane of wire symbol n: n mod 8, or lane 0 of a narrowed link; the spare, lane 8, where it replaced that lane
(R306, R316). -/
def symbolLane (narrow : Bool) (spared : BitVec 4) (n : Nat) : Nat :=
  let j := if narrow then 0 else n % 8
  if spared.toNat = j then 8 else j

/-- Its lane slot (R306, R316). -/
def symbolSlot (narrow : Bool) (n : Nat) : Nat := if narrow then n else n / 8

/-- A symbol as two PAM4 unit intervals, bits [3:2] first (R306). -/
def pam4 (s : Sym) : List (BitVec 2) := [s.extractLsb' 2 2, s.extractLsb' 0 2]

/-- What the nine lanes carry for eighteen code words, in unit intervals. -/
def toWire (narrow : Bool) (spared : BitVec 4) (ws : List (BitVec 144)) : List (List (BitVec 2)) :=
  (List.range 9).map fun l =>
    ((List.range 648).filter fun n => symbolLane narrow spared n == l).flatMap fun n => pam4 (wireSymbol ws n)

/-- Wire symbol n as the lanes carry it. -/
def laneSymbol (narrow : Bool) (spared : BitVec 4) (lanes : List (List (BitVec 2))) (n : Nat) : Sym :=
  let l := lanes.getD (symbolLane narrow spared n) []
  l.getD (2 * symbolSlot narrow n) 0 ++ l.getD (2 * symbolSlot narrow n + 1) 0

/-- The eighteen code words that the lanes carry. -/
def fromWire (narrow : Bool) (spared : BitVec 4) (lanes : List (List (BitVec 2))) : List (BitVec 144) :=
  (List.range 18).map fun i =>
    (List.range 36).foldl
      (fun w j => w ||| ((laneSymbol narrow spared lanes (36 * i + j)).setWidth 144 <<< (4 * j))) 0

/-! ### Lane patterns (R494) -/

/-- Length and inner tap of the PRBS of a LANE_TEST.PATTERN code: PRBS7, PRBS15, PRBS31. -/
def prbsTaps (pattern : BitVec 3) : Option (Nat × Nat) :=
  if pattern = 1 then some (7, 6) else if pattern = 2 then some (15, 14) else if pattern = 3 then some (31, 28) else none

/-- The next bit of a PRBS whose last bits, the newest least significant, are `s`. -/
def prbsBit (taps : Nat × Nat) (s : Nat) : Nat := (s / 2 ^ (taps.1 - 1) + s / 2 ^ (taps.2 - 1)) % 2

/-- `n` unit intervals of a PRBS, the earlier bit in the more significant position. -/
def prbsUnits (taps : Nat × Nat) : Nat → Nat → List (BitVec 2)
  | 0, _ => []
  | n + 1, s =>
    let x := prbsBit taps s
    let s1 := (2 * s + x) % 2 ^ taps.1
    let y := prbsBit taps s1
    BitVec.ofNat 2 (2 * x + y) :: prbsUnits taps n ((2 * s1 + y) % 2 ^ taps.1)

/-- Content of flit n of the flit pattern. -/
def patternFlit (n : Nat) : List Byte := (List.range 288).map fun i => BitVec.ofNat 8 (7 * n + i)

/-- What the lanes carry for it: code words and wire symbols as of a flit, without encryption. -/
def patternWire (n : Nat) : List (List (BitVec 2)) := toWire false 15 (flitWords (patternFlit n))

end Sys2Proof.Machine
end

