-- ==== Sys2Proof/Machine/LinkNet.lean ====
section
/-!
DEFINITION. Sending flits: headers (R301 to R304), routing (R317 to R320), channels and credits (R307), replay buffers
and encryption of a link (R305, R309).
-/
namespace Sys2Proof.Machine

/-! ### Content of a flit -/

/-- The class and the offset a header carries for a local address (R289). -/
def classOf (l : Nat) : Nat × Nat :=
  match spaceOf l with
  | .tier => (1, spaceOff l)
  | .window _ _ => (2, spaceOff l)
  | .control => (3, spaceOff l)
  | _ => (0, l)

/-- The local address of a class and an offset. -/
def addrOfClass (cls off : Nat) : Nat :=
  if cls = 1 then off + 0x10000000000 else if cls = 2 then off + sramBase else if cls = 3 then off + ctlBase else off

/-- The header of R301 as a number. -/
def headerNat (f : Flit) : Nat :=
  f.code + f.count * 2 ^ 4 + f.dst.toNat * 2 ^ 8 + f.src.toNat * 2 ^ 23 + f.tag.toNat * 2 ^ 38 +
    f.epoch.toNat * 2 ^ 54 + f.offset * 2 ^ 86 + f.cls * 2 ^ 126

/-- Header and payload, 272 bytes; payload bytes beyond the data are zero (R300). -/
def flitBytes (f : Flit) : List Byte :=
  leBytes 16 (headerNat f) ++ f.data ++ List.replicate (256 - f.data.length) 0

/-- The header's fields and the whole payload of 272 bytes. -/
def readFlit (x : List Byte) : Flit :=
  let h := leNat (x.take 16)
  { code := h % 16, count := h / 2 ^ 4 % 16, dst := BitVec.ofNat 15 (h / 2 ^ 8), src := BitVec.ofNat 15 (h / 2 ^ 23),
    tag := BitVec.ofNat 16 (h / 2 ^ 38), epoch := BitVec.ofNat 32 (h / 2 ^ 54), offset := h / 2 ^ 86 % 2 ^ 40,
    cls := h / 2 ^ 126 % 4, data := x.drop 16 }

/-- The operand head of RADD kind 5 (R303). -/
def raddHead (fmt : Nat) (k : Int) (count : Nat) : List Byte :=
  leBytes 1 fmt ++ leBytes 1 (k + 127).toNat ++ leBytes 2 count ++ List.replicate 12 0

/-- The flit of one request (R302, R303). [DEDUCED, log 45] -/
def requestFlit (r : Request) : Flit :=
  let l := faLocal r.addr
  let cd : Nat × List Byte := match r.op with
    | .put d => (1, d)
    | .get n => (2, leBytes 4 n)
    | .signal inc => (3, leBytes 8 inc.toNat)
    | .take => (2, leBytes 4 64)
    | .radd kind fmt k count d =>
      if kind = 5 then (9, raddHead fmt k count ++ d) else if kind < 5 then (4 + kind, d) else (10, d)
  { code := cd.1, count := 0, dst := faModule r.addr, src := r.src, tag := r.tag, epoch := r.epoch,
    cls := (classOf l).1, offset := (classOf l).2, data := cd.2 }

def responseFlit (r : Response) : Flit :=
  let code := if r.status ≠ 0 then 14 else if r.data.isEmpty then 12 else 13
  { code := code, count := 0, dst := r.dst, src := r.src, tag := r.tag, epoch := r.epoch, cls := 0, offset := r.status,
    data := r.data }

def isResponse (f : Flit) : Bool := decide (f.code ≥ 12)

/-! ### Routing -/

def coordOf (x : U32) (axis : Nat) : Nat := x.toNat / 256 ^ axis % 256

/-- Direction 2 × axis (+1 for −) toward a destination, with whether the hop crosses the axis's wrap (R318, R320). -/
def routeDir (b : Block) (dst : BitVec 15) : Option (Nat × Bool) :=
  match tlook b.fab.route dst.toNat with
  | none => none
  | some there =>
    match (List.range 4).find? fun a =>
        coordOf b.geo.extent a != 1 && coordOf there a != coordOf b.geo.coord a with
    | none => none
    | some a =>
      let e := coordOf b.geo.extent a
      let c := coordOf b.geo.coord a
      let d := (coordOf there a + e - c) % e
      if d ≤ e - d then some (2 * a, decide (c = e - 1)) else some (2 * a + 1, decide (c = 0))

/-- The links of a direction, in ascending order. [DEDUCED, log 55] -/
def dirLinks (b : Block) (dir : Nat) : List Nat :=
  (List.range 32).filter fun k => ((b.geo.dirLinks.getD dir 0).getLsbD k)

def linkUp (b : Block) (k : Nat) : Bool := (linkOf b k).st == 7
def linkUsable (b : Block) (k : Nat) : Bool := (linkOf b k).st == 7 || (linkOf b k).st == 8

/-- The link of a direction that a flit takes: the first at full width, else the first narrowed (R319).
[DEDUCED, log 45] -/
def linkFor (b : Block) (dir : Nat) : Option Nat :=
  ((dirLinks b dir).find? (linkUp b)).or ((dirLinks b dir).find? (linkUsable b))

/-- The link toward a destination: on an axis of extent 2 the opposite direction serves as well (R319). -/
def linkToward (b : Block) (dir : Nat) : Option Nat :=
  (linkFor b dir).or (if coordOf b.geo.extent (dir / 2) = 2 then linkFor b (dir / 2 * 2 + (1 - dir % 2)) else none)

/-- The virtual channel on the next link; `came` is the axis and channel it arrived on (R320). -/
def nextVc (f : Flit) (axis : Nat) (cross : Bool) (came : Option (Nat × Nat)) : Nat :=
  let base := if isResponse f then 2 else 0
  let kept := match came with
    | some (a, v) => a == axis && v % 2 == 1
    | none => false
  base + (cross || kept).toNat

/-! ### A link's transmitter -/

def addAt (l : List Nat) (i n : Nat) : List Nat := l.set i (l.getD i 0 + n)
def subAt (l : List Nat) (i n : Nat) : List Nat := l.set i (l.getD i 0 - n)

/-- The control word: LEN, VC, credits returned, last sequence number accepted (R304). -/
def controlWord (len vc crn crvc ack : Nat) : List Byte :=
  leBytes 4 ((len - 1) + vc * 2 ^ 8 + crn * 2 ^ 10 + crvc * 2 ^ 14 + (ack % 4096) * 2 ^ 16)

/-- The control word of a flit that is sent again under new keys: it acknowledges nothing of the new sequence. -/
def controlAgain (cw : List Byte) : List Byte := leBytes 4 (leNat cw % 2 ^ 16 + 0xFFF * 2 ^ 16)

/-- Credits a flit of its own can return: those of the first channel that has any, at most 15. -/
def creditsBack (l : Link) : Nat × Nat :=
  match (List.range 4).find? fun v => l.owed.getD v 0 != 0 with
  | some v => (v, min 15 (l.owed.getD v 0))
  | none => (0, 0)

/-- The wire content of sequence number `seq` (R305): ciphertext, 12-byte tag, control word. The link's key is held with
its salt behind it. -/
def sealFlit (l : Link) (seq : Nat) (content cw : List Byte) : List Byte :=
  let x := Config.gcmSeal (l.txKey.take 32) (l.txKey.drop 32 ++ leBytes 8 seq) cw content
  x.take 284 ++ cw

/-- What a flit of a link puts on its lanes: its eighteen code words as R306 lays them. -/
def lanesOf (l : Link) (seq : Nat) (content cw : List Byte) : List (List (BitVec 2)) :=
  toWire (l.st == 8) l.spared (flitWords (sealFlit l seq content cw))

/-- Send a flit's content on a link: it takes the next sequence number and stays in the replay buffer (R309). -/
def transmit (b : Block) (k : Nat) (vc : Option Nat) (content : List Byte) (len : Nat) : Block :=
  let l := linkOf b k
  let cr := if vc.isSome then creditsBack l else (0, 0)
  let cw := controlWord (max len 1) (vc.getD 0) cr.2 cr.1 (l.rxNext + 4095)
  let n := bump16 l.tx l.txLow
  { setLink b k { l with
      txNext := l.txNext + 1, replay := l.replay ++ [⟨l.txNext, content, cw⟩], tx := n.1, txLow := n.2,
      credits := (match vc with | some v => subAt l.credits v 1 | none => l.credits),
      owed := subAt l.owed cr.1 cr.2, ackOwed := 0 }
    with egress := b.egress ++ [.flit k l.txNext (lanesOf l l.txNext content cw)] }

/-- While the module is fenced, house traffic and its own refusals alone may leave (R324). [DEDUCED, log 56] -/
def mayLeave (b : Block) (f : Flit) : Bool :=
  !b.fab.fenced || f.epoch.toNat / 2 ^ 20 == 0 || (isResponse f && f.src == b.geo.own)

def ready (b : Block) (l : Link) (e : Queued) : Bool :=
  l.st == 7 && decide (l.credits.getD e.vc 0 > 0) && decide (l.replay.length < 512) && decide (l.txNext < 2 ^ 47) &&
    mayLeave b e.flit

/-- A flit leaves the receive buffer it came in: its credit is owed to that link (R307). -/
def leaveBuffer (b : Block) (e : Queued) : Block :=
  match e.src with
  | none => b
  | some (k, v) => setLink b k { linkOf b k with owed := addAt (linkOf b k).owed v 1 }

/-- Send the waiting flits of a link that have a credit and room in the replay buffer, oldest first (R307). -/
def drainN : Nat → Block → Nat → Block
  | 0, b, _ => b
  | n + 1, b, k =>
    let l := linkOf b k
    match l.queue.findIdx? (ready b l) with
    | none => b
    | some i =>
      match l.queue[i]? with
      | none => b
      | some e =>
        drainN n (transmit (leaveBuffer (setLink b k { l with queue := l.queue.eraseIdx i }) e) k (some e.vc)
          (flitBytes e.flit) e.flit.data.length) k

def drainLink (b : Block) (k : Nat) : Block := drainN (linkOf b k).queue.length b k

/-- Flits that hold places in the receive buffer of channel v of link k (R307): those waiting in the switch. -/
def buffered (b : Block) (k v : Nat) : Nat :=
  sumOf ((List.range 32).map fun j => ((linkOf b j).queue.filter fun e => e.src == some (k, v)).length)

/-- Route a flit and queue it for a link; `came` is the link and channel it arrived on. None where R319 finds no route.
[DEDUCED, log 45] -/
def launch (b : Block) (f : Flit) (came : Option (Nat × Nat)) : Option Block :=
  match routeDir b f.dst with
  | none => none
  | some (dir, cross) =>
    match linkToward b dir with
    | none => none
    | some k =>
      let l := linkOf b k
      let vc := nextVc f (dir / 2) cross (came.map fun x => ((linkOf b x.1).dir.toNat / 2, x.2))
      some (drainLink (setLink b k { l with queue := l.queue ++ [⟨vc, f, came⟩] }) k)

end Sys2Proof.Machine
end

