-- ==== Sys2Proof/Machine/Requests.lean ====
section
/-!
DEFINITION. The requester's side of remote operations (R192 to R198, R290 to R299): cutting an operation into requests,
tags, what leaves a port, and what a completion does.
-/
namespace Sys2Proof.Machine

/-- Cut [a, a + n) at the 256-byte boundaries of `a` (R192), ascending. -/
def cutRange : Nat → U64 → Nat → List (U64 × Nat)
  | 0, _, _ => []
  | f + 1, a, n =>
    if n = 0 then []
    else
      let room := 256 - a.toNat % 256
      if n ≤ room then [(a, n)] else (a, room) :: cutRange f (addrAdd a room) (n - room)

def cuts (a : U64) (n : Nat) : List (U64 × Nat) := cutRange (n / 256 + 2) a n

/-- An address a request can be sent to (R292): its local part lies in a row of the local map, and its module number
is the own one or has a route-table entry. -/
def reachable (b : Block) (a : U64) : Bool :=
  (match spaceOf (faLocal a) with | .gap => false | _ => true) &&
    (faModule a = b.geo.own || (tlook b.fab.route (faModule a).toNat).isSome)

/-- The tags of a unit's pool: first tag and number (R299; the numbering is the model's choice). [DEDUCED, log 44] -/
def tagPool : UnitId → Nat × Nat
  | .tile _ => (0, 63232)
  | .reckoner r => (63232 + 192 * r.val, 64)
  | .derrick r => (63232 + 192 * r.val + 64, 64)
  | .engine r => (63232 + 192 * r.val + 128, 64)

/-- Tags a unit holds, quarantined ones included. -/
def tagsHeld (b : Block) (u : UnitId) : Nat :=
  (b.fab.reqs.filter fun e => e.2.unit = sysUnit u).length +
    (b.fab.quarantine.filter fun e => e.2 = sysUnit u).length

/-- The lowest free tag of the unit's pool, when the unit may hold one more (R192, R299). [DEDUCED, log 44] -/
def freeTag (b : Block) (u : UnitId) : Option Nat :=
  if tagsHeld b u < 64 then
    firstFree (fun t => (tlook b.fab.reqs t).isNone && (tlook b.fab.quarantine t).isNone) (tagPool u).2 (tagPool u).1
  else none

/-- The chip counter of a status (R296, R326). -/
def countStatus (f : Fab) (st : Nat) : Fab :=
  if st = 0x01 then { f with staleOut := satAdd f.staleOut 1 }
  else if st = 0x10 then { f with timeoutCnt := satAdd f.timeoutCnt 1 }
  else if st = 0x11 then { f with unreach := satAdd f.unreach 1 }
  else f

/-- Add to a 64-bit counter word in this module's memory (R194); a word that cannot be read is not added to (R268). -/
def addCounter (b : Block) (c : Nat) (a inc : U64) : Block :=
  match whereIs b c a with
  | .mem k => (updateMem b k (faLocal a) 8 (addWord inc)).1
  | _ => b

/-- What a finished piece brings home: GET data to its local address, or access data to the unit's buffer; a refused
read is zero bytes, and of an access it is noted for the register's sake (R142, R194, R296). [DESIGN CHOICE, log 100] -/
def landData (b : Block) (c : Nat) (u : UnitId) (fin : OpEnd) (a fill : U64) (op : ReqOp) (st : Nat) (data : List Byte) :
    Block :=
  match op with
  | .get n =>
    let d := (List.range n).map fun j => if st = 0 then data.getD j 0 else 0
    match fin with
    | .access =>
      let i := img b c u
      setImg b c u { i with
        rbuf := (List.range n).foldl (fun t j => tins t (addrAdd a j).toNat (d.getD j 0)) i.rbuf
        rbad := i.rbad || st != 0 }
    | .stage => (writeMem b (faLocal fill) (faLocal fill) d).1
    | _ => match whereIs b c fill with
      | .mem k => (writeMem b k (faLocal fill) d).1
      | _ => b
  | _ => b

/-- Count a refusal toward the FENCE result of the target (R198, R296). -/
def countRefusal (i : UnitImg) (a : U64) (st : Nat) : UnitImg :=
  if st = 0 then i
  else { i with refus := tput i.refus 0 (faModule a).toNat (tget i.refus 0 (faModule a).toNat + 1) }

def updOp (l : List RemOp) (id : Nat) (f : RemOp → RemOp) : List RemOp :=
  l.map fun o => if o.id = id then f o else o

/-- One piece of a unit's operation, one of an `ended` collective request or not, has ended with a status (R296). -/
def endPiece (b : Block) (c : Nat) (u : UnitId) (fin : OpEnd) (ended : Bool) (a fill : U64) (op : ReqOp) (st : Nat)
    (data : List Byte) : Block :=
  let b1 := landData b c u fin a fill op st data
  setImg { b1 with fab := countStatus b1.fab st } c u (if ended then img b1 c u else countRefusal (img b1 c u) a st)

/-- The first operation of the port that has a piece to send. -/
def nextPiece (l : List RemOp) : Option (RemOp × U64 × ReqOp × U64) :=
  match l with
  | [] => none
  | o :: r => match o.unsent with
    | p :: _ => some (o, p.1, p.2.1, p.2.2)
    | [] => nextPiece r

/-- Send the port's next piece, if a tag is free; an address that never leaves the requester ends UNREACHABLE. -/
def sendPiece (b : Block) (c : Nat) (u : UnitId) : Option Block :=
  if b.fab.fenced || b.fab.portsHeld then none
  else match nextPiece (img b c u).ops with
    | none => none
    | some (o, a, op, fill) =>
      let pop : RemOp → RemOp := fun x => { x with unsent := x.unsent.drop 1 }
      let i := img b c u
      if reachable b a then
        match freeTag b u with
        | none => none
        | some t =>
          let rq : Request := { src := b.geo.own, tag := BitVec.ofNat 16 t, epoch := (ctxOf b c).epoch, addr := a, op := op }
          let b1 := setImg b c u { i with ops := updOp i.ops o.id fun x => { pop x with outstanding := x.outstanding + 1 } }
          let b2 := { b1 with
            fab := { b1.fab with
              reqs := tins b1.fab.reqs t { unit := sysUnit u, ctx := c, op := o.id, fill := fill, req := rq } } }
          if faModule a = b.geo.own then some b2
          else match launch b2 (requestFlit rq) none with
            | some b3 => some b3
            | none =>
              some (endPiece (setImg { b with fab := { b.fab with noroute := satAdd b.fab.noroute 1 } } c u
                { i with ops := updOp i.ops o.id pop }) c u o.fin o.ended a fill op 0x08 [])
      else some (endPiece (setImg b c u { i with ops := updOp i.ops o.id pop }) c u o.fin o.ended a fill op 0x11 [])

/-- An operation whose requests have all completed: GET adds 1 to its counter; PUTS sends its signal (R194). -/
def finishOp (b : Block) (c : Nat) (u : UnitId) : Option Block :=
  let i := img b c u
  match i.ops.find? fun o => o.unsent.isEmpty && o.outstanding = 0 with
  | none => none
  | some o =>
    let rest := { i with ops := i.ops.filter fun x => x.id ≠ o.id }
    match o.fin with
    | .signal ctr inc =>
      some (setImg b c u { i with ops := updOp i.ops o.id fun x => { x with fin := .plain, unsent := [(ctr, .signal inc, 0)] } })
    | .get (some ctr) => some (addCounter (setImg b c u rest) c ctr 1)
    | _ => some (setImg b c u rest)

/-- Let the port work until nothing more can leave or finish. -/
def pumpN : Nat → Block → Nat → UnitId → Block
  | 0, b, _, _ => b
  | n + 1, b, c, u =>
    match finishOp b c u with
    | some b1 => pumpN n b1 c u
    | none => match sendPiece b c u with
      | some b1 => pumpN n b1 c u
      | none => b

def pump (b : Block) (c : Nat) (u : UnitId) : Block :=
  pumpN (((img b c u).ops.map fun o => o.unsent.length + 4).foldl (· + ·) 1) b c u

/-- Every port sends what it may: a tag is free again, or the ports are released (R192, R349, R358). -/
def pumpAll (b : Block) : Block :=
  ((b.units.filter fun e => e.2.ops.any fun o => !o.unsent.isEmpty).map Prod.fst).foldl
    (fun z k => pump z (k / 65536) (unitOf (k % 65536))) b

/-- Queue a remote operation in the unit's port and let it leave (R192). [DEDUCED, log 46] -/
def startOp (b : Block) (c : Nat) (u : UnitId) (fin : OpEnd) (pieces : List (U64 × ReqOp × U64)) : Block :=
  let i := img b c u
  let o : RemOp := { id := b.opNext, fin := fin, unsent := pieces, outstanding := 0 }
  pump (setImg { b with opNext := b.opNext + 1 } c u { i with ops := i.ops ++ [o] }) c u

/-- The port queues at most 16 operations (R192). -/
def portFull (i : UnitImg) : Bool := decide (i.ops.length ≥ 16)

/-- Operations of the unit that still have a request, sent or not, to a module of the scope (R198). -/
def scopeOpen (b : Block) (c : Nat) (u : UnitId) (p : BitVec 15 → Bool) : Bool :=
  (img b c u).ops.any (fun o =>
    o.unsent.any (fun x => p (faModule x.1)) ||
      (match o.fin with | .signal ctr _ => p (faModule ctr) | _ => false)) ||
  b.fab.reqs.any fun e => e.2.unit = sysUnit u && e.2.ctx = c && p (faModule e.2.req.addr)

/-- The image once its access is behind it. -/
def accessed (i : UnitImg) : UnitImg := { i with rbuf := [], rbad := false }

/-- No remote access of the unit's waiting instruction is open. -/
def accessDone (i : UnitImg) : Bool := !(i.ops.any fun o => o.fin = .access)

/-- Fetch the remote bytes of ranges that the unit has not got, and wait for them with the word (R26, R168).
[DEDUCED, log 18] -/
def fetchRemote (b : Block) (c : Nat) (u : UnitId) (word : U64) (rs : List (U64 × Nat)) : Block :=
  let i := img b c u
  let need := rs.filter fun r => missing b c i r.1 r.2
  let pieces := (need.flatMap fun r => cuts r.1 r.2).map fun p => (p.1, ReqOp.get p.2, (0 : U64))
  let b1 := setImg b c u { i with run := .waiting .fetch word }
  startOp b1 c u .access pieces

/-- Store bytes: to this module at once, a refusal counted as R168 has it, to another module as PUT requests the instruction waits for (R142, R168). -/
def storeBytes (b : Block) (c : Nat) (u : UnitId) (a : U64) (x : List Byte) : Block :=
  if faModule a = b.geo.own then
    let b1 := storeOwn b c a x
    if (storeMet b c a x.length).isSome then setImg b1 c u (countRefusal (img b1 c u) a 6) else b1
  else
    startOp b c u .access
      ((cuts a x.length).map fun p =>
        (p.1, .put ((x.drop (p.1 - a).toNat).take p.2), (0 : U64)))

/-- Retire, or wait first for the instruction's own remote writes. -/
def retireAfter (b : Block) (c : Nat) (u : UnitId) (word : U64) (i : UnitImg) : Block :=
  if accessDone i then retire b c u (accessed i)
  else park b c u i .drain word

end Sys2Proof.Machine
end

