-- ==== Sys2Proof/Machine/Memory.lean ====
section
/-!
DEFINITION. The memory class: LD and ST (R142).
-/
namespace Sys2Proof.Machine

/-- Bytes of the access: 32 for a t register, else 2^size. -/
def accessSize (o : Ops) : Nat := if bits o 40 2 = 2 then 32 else 2 ^ bits o 38 2

def memAddr (i : UnitImg) (o : Ops) : U64 := sreg i (fa o) + off32 o

/-- The t register of [50:47]. -/
def tField (o : Ops) : BitVec 4 := o.extractLsb' 47 4

/-- What a read of `n` bytes of mapped memory meets: the block after corrections and counts, and whether an
uncorrectable word refuses it (R268) or faults a tile (R104, R129). -/
inductive ReadOut where
  | ok (b : Block)
  | refused (b : Block)
  | tileFault (b : Block)
deriving DecidableEq, Repr

/-- [DEDUCED, log 18] -/
def meetRead (b : Block) (c : Nat) (u : UnitId) (a : U64) (n : Nat) : ReadOut :=
  match whereIs b c a with
  | .mem k =>
    let r := readMem b k (faLocal a) n
    match r.2 with
    | none => .ok r.1
    | some e =>
      match spaceOf (e % 2 ^ 49) with
      | .window t off => .tileFault (tileFault r.1 t 2 (off / 64 % 32) (img b c u).pc)
      | _ => .refused (memFault r.1 e)
  | .ctl l => .ok (latchReads b l n)
  | _ => .ok b

/-- Zero- or sign-extend the loaded bytes (R142). [PRESUMED, log 20] -/
def extendLoad (o : Ops) (x : List Byte) : U64 :=
  let n := leNat x
  let w := 8 * accessSize o
  if bit o 37 && n.testBit (w - 1) then BitVec.ofInt 64 ((n : Int) - 2 ^ w) else BitVec.ofNat 64 n

def loadReg (i : UnitImg) (o : Ops) (x : List Byte) : UnitImg :=
  if bits o 40 2 = 0 then setS i (fd o) (extendLoad o x)
  else if bits o 40 2 = 1 then setF i (fd o) (BitVec.ofNat 64 (leNat x))
  else setT i (tField o) (BitVec.ofNat 256 (leNat x))

/-- What a load brings: zero in the whole register where a request of it was refused, one of two included (R142).
[DESIGN CHOICE, log 100] -/
def loadedBytes (b : Block) (c : Nat) (i : UnitImg) (a : U64) (n : Nat) : List Byte :=
  if i.rbad then List.replicate n 0 else readBytes b c i a n

def ldEff (u : UnitId) (o : Ops) (b : Block) : Block :=
  issue b u (mkWord 2 0x00 o) (legalMem u o) fun c i =>
    let w := mkWord 2 0x00 o
    let a := memAddr i o
    let n := accessSize o
    if n = 32 && a.toNat % 32 != 0 then takeExc b c u 4 a w
    else match badByte b c a n with
      | some x => takeExc b c u 3 x w
      | none =>
        if missing b c i a n then fetchRemote b c u w [(a, n)]
        else match meetRead b c u a n with
          | .ok b1 => retire b1 c u (accessed (loadReg i o (loadedBytes b1 c i a n)))
          | .refused b1 =>
            retire b1 c u (countRefusal (loadReg i o (List.replicate n 0)) a 6)
          | .tileFault b1 => b1

/-- The bytes ST writes. -/
def storeData (i : UnitImg) (o : Ops) : List Byte :=
  if bits o 40 2 = 0 then leBytes (accessSize o) (sreg i (fd o)).toNat
  else if bits o 40 2 = 1 then leBytes 8 (freg i (fd o)).toNat
  else leBytes 32 (treg i (tField o)).toNat

def stEff (u : UnitId) (o : Ops) (b : Block) : Block :=
  issue b u (mkWord 2 0x01 o) (legalStore u o) fun c i =>
    let w := mkWord 2 0x01 o
    let a := memAddr i o
    let n := accessSize o
    if n = 32 && a.toNat % 32 != 0 then takeExc b c u 4 a w
    else match badByte b c a n with
      | some x => takeExc b c u 3 x w
      | none =>
        let b1 := storeBytes b c u a (storeData i o)
        retireAfter b1 c u w (img b1 c u)

end Sys2Proof.Machine
end

