-- ==== Sys2Proof/Machine/Seam.lean ====
section
/-!
DEFINITION. Seams (R48 to R52) and the array's window (R41 to R47).
-/
namespace Sys2Proof.Machine

def seamEmpty : Seam :=
  { v := 0, nan := false, pinf := false, ninf := false, sat := false, under := false, count := 0 }

/-- The slot layout of R51; its reserved bits are ignored on reading and written as zero (R7). [DEDUCED, log 22] -/
def seamOfBytes (l : List Byte) : Seam :=
  let fl := leNat ((l.drop 48).take 2)
  { v := BitVec.ofNat 384 (leNat (l.take 48))
    nan := fl.testBit 0, pinf := fl.testBit 1, ninf := fl.testBit 2, sat := fl.testBit 3, under := fl.testBit 4
    count := BitVec.ofNat 48 (leNat ((l.drop 50).take 6)) }

def seamFlags (x : Seam) : Nat :=
  x.nan.toNat + 2 * x.pinf.toNat + 4 * x.ninf.toNat + 8 * x.sat.toNat + 16 * x.under.toNat

/-- [DEDUCED, log 22] -/
def seamBytes (x : Seam) : List Byte :=
  leBytes 48 x.v.toNat ++ leBytes 2 (seamFlags x) ++ leBytes 6 x.count.toNat ++ leBytes 8 0

/-- Magnitude m × 2^e in units of 2^-192, truncated toward zero, and whether nonzero bits were dropped. -/
def seamUnits (m : Nat) (e : Int) : Nat × Bool :=
  let sh := e + 192
  if 0 ≤ sh then (m <<< sh.toNat, false)
  else (m >>> (-sh).toNat, m % 2 ^ (-sh).toNat != 0)

/-- The largest in-range magnitude of R49 step 3, in units of 2^-192. -/
def seamMax : Nat := 2 ^ 320 - 1

/-- Seam addition of one value (R49). -/
def seamAdd (x : FVal) (s : Seam) : Seam :=
  let t := { s with count := satAdd s.count 1 }
  match x with
  | .nan => { t with nan := true }
  | .inf sg => if sg then { t with ninf := true } else { t with pinf := true }
  | .fin sg m e =>
    let u := seamUnits m e
    let big := decide (u.1 ≥ 2 ^ 320)
    let mag := if big then seamMax else u.1
    let d := BitVec.ofNat 384 mag
    { t with
      v := if sg then s.v - d else s.v + d
      sat := s.sat || big
      under := s.under || (!big && u.2) }

/-- Seam into seam (R91, R195 kind 6): V added exactly, flags ORed, counts added and stopping at 2^48 - 1. -/
def seamMerge (a s : Seam) : Seam :=
  { s with
    v := s.v + a.v, nan := s.nan || a.nan, pinf := s.pinf || a.pinf, ninf := s.ninf || a.ninf,
    sat := s.sat || a.sat, under := s.under || a.under, count := satAdd s.count a.count.toNat }

/-- The exact value of a seam for rounding (R52), with the events the rounding raises. -/
def seamValue (x : Seam) : FVal × Ev :=
  let ev : Ev := { sunder := x.under.toNat, ssat := x.sat.toNat }
  if x.nan then (.nan, ev)
  else if x.pinf && x.ninf then (.nan, { ev with nangen := 1 })
  else if x.pinf then (.inf false, ev)
  else if x.ninf then (.inf true, ev)
  else
    let v := x.v.toInt
    if v = 0 then (.fin false 0 0, ev) else (.fin (decide (v < 0)) v.natAbs (-192), ev)

/-- A seam rounded to binary32 or binary64 by nearest-even (R52). -/
def seamRound (f : Fmt) (x : Seam) : FVal × Ev :=
  let r := seamValue x
  (fdecode f (convertTo f .nearest false 0 0 r.1 false).1, r.2)

/-- An addend of an array pass (R43): a product, or a single value (the accumulator input, an element of a TRED sum). -/
inductive Addend where
  | prod (fa fb : Fmt) (a b : FVal)
  | one (f : Fmt) (x : FVal)
deriving DecidableEq, Repr

def addendNan : Addend → Bool
  | .prod _ _ a b => fIsNan a || fIsNan b
  | .one _ x => fIsNan x

/-- The sign an infinite addend contributes, if it is infinite. -/
def addendInf : Addend → Option Bool
  | .prod _ _ a b => match (fMul a b).v with | .inf s => some s | _ => none
  | .one _ x => match x with | .inf s => some s | _ => none

/-- A product 0 × ∞. -/
def addendInvalid : Addend → Bool
  | .prod _ _ a b => (fMul a b).gen
  | .one _ _ => false

def addendZero : Addend → Bool
  | .prod _ _ a b => fIsZero (fMul a b).v
  | .one _ x => fIsZero x

def addendNegZero : Addend → Bool
  | .prod _ _ a b => fIsZero (fMul a b).v && fSign (fMul a b).v
  | .one _ x => fIsZero x && fSign x

/-- E(x) of R41: the exponent of the operand's binade, scale included. -/
def binade (f : Fmt) : FVal → Int
  | .fin _ _ e => e + fmtP f - 1
  | _ => 0

def sigOf : FVal → Nat
  | .fin _ m _ => m | _ => 0

/-- Slice i of an operand (R41). -/
def sliceOf (f : Fmt) (m i : Nat) : Nat := ((m <<< (12 * fmtSlices f - fmtP f)) >>> (12 * i)) % 4096

/-- lead of R44, for a nonzero finite addend. [DEDUCED, log 24] -/
def addendLead : Addend → Int
  | .prod fa fb a b => binade fa a + binade fb b + 1
  | .one f x => binade f x

/-- The terms (magnitude, sign, weight) an addend brings to the window: slice products (R42), or one term. -/
def addendTerms : Addend → List (Nat × Bool × Int)
  | .prod fa fb a b =>
    (List.range (fmtSlices fa)).flatMap fun i => (List.range (fmtSlices fb)).map fun j =>
      (sliceOf fa (sigOf a) i * sliceOf fb (sigOf b) j, fSign a != fSign b,
       (12 * (i + j) : Nat) + binade fa a + binade fb b - (12 * (fmtSlices fa + fmtSlices fb) : Nat) + 2)
  | .one f x => [(sigOf x, fSign x, binade f x - (fmtP f - 1))]

/-- One term enters the window at its own truncation (R44). -/
def windowTerm (floor : Int) (w : Int × Bool) (t : Nat × Bool × Int) : Int × Bool :=
  let m := t.1
  let sg := t.2.1
  let e := t.2.2
  let d := if floor ≤ e then m <<< (e - floor).toNat else m >>> (floor - e).toNat
  let lost := decide (e < floor) && m % 2 ^ (floor - e).toNat != 0
  (if sg then w.1 - d else w.1 + d, w.2 || lost)

/-- An array pass over its addends (R44, R46). -/
def arrayPass (l : List Addend) : PassOut :=
  if l.any addendNan then .nan false
  else
    let infs := l.filterMap addendInf
    if l.any addendInvalid || (infs.contains true && infs.contains false) then .nan true
    else if infs.contains true then .inf true
    else if infs.contains false then .inf false
    else
      let nz := l.filter fun a => !addendZero a
      let lmax := match nz.map addendLead with
        | [] => 0
        | a :: r => r.foldl max a
      let floor := lmax - 191
      let w := (nz.flatMap addendTerms).foldl (windowTerm floor) (0, false)
      .win w.1 floor w.2 (l.all addendNegZero && !w.2)

/-- What a rounded pass hands to the write path (R46, R169), with the events of the pass (R45). -/
def passValue : PassOut → FVal × Bool × Ev
  | .nan g => (.nan, false, { nangen := g.toNat })
  | .inf s => (.inf s, false, {})
  | .win w fl st nz =>
    if w = 0 then (.fin nz 0 0, false, { wloss := st.toNat })
    else (.fin (decide (w < 0)) w.natAbs fl, st, { wloss := st.toNat })

/-- A pass delivered into a seam (R47), with its events. -/
def passSeam (p : PassOut) (s : Seam) : Seam × Ev :=
  match p with
  | .nan g => (seamAdd .nan s, { nangen := g.toNat })
  | .inf sg => (seamAdd (.inf sg) s, {})
  | .win w fl st _ => (seamAdd (.fin (decide (w < 0)) w.natAbs fl) s, { wloss := st.toNat })

end Sys2Proof.Machine
end

