-- ==== Sys2Proof/Machine/View.lean ====
section
/-!
DEFINITION. Tensor views: descriptors and their clamps (R81 to R84), addresses of setts and elements (R76 to R79), write-
enable maps (R85, R86), scale records (R55, R63, R69), the rounding stream (R71 to R74), and the write path of every
tensor instruction (R59, R169, R170).
-/
namespace Sys2Proof.Machine

/-- A descriptor after the clamps of R83. -/
structure Desc where
  /-- none is the seam format -/
  fmt : Option Fmt
  base : U64
  e0 : Nat
  e1 : Nat
  e2 : Nat
  e3 : Nat
  s0 : Nat
  s1 : Nat
  s2 : Nat
  s3 : Nat
  wem : Nat
  /-- address of the scale record; 0 is unscaled -/
  sr : U64
deriving DecidableEq, Repr

/-- An element's place in a view: column, row, and the planes on axes 2 and 3. -/
structure Coord where
  x : Nat
  y : Nat
  p : Nat
  q : Nat
deriving DecidableEq, Repr

def dbits (d : BitVec 256) (lo n : Nat) : Nat := (d.extractLsb' lo n).toNat

/-- Read a descriptor (R81) with the clamps of R83; the map's clamp belongs to a destination (R85, R153). -/
def readDesc (dest : Bool) (d : BitVec 256) : Desc × Nat :=
  let fc := dbits d 0 4
  let one (n : Nat) : Nat := if n = 0 then 1 else n
  let z (n : Nat) : Nat := if n = 0 then 1 else 0
  let fmt := fmtOfCode fc
  let wem := dbits d 192 10
  let sr := BitVec.ofNat 64 (dbits d 202 54 * 1024)
  let e0 := dbits d 64 16
  let e1 := dbits d 80 16
  let e2 := dbits d 96 12
  let e3 := dbits d 108 12
  ({ fmt := fmt, base := BitVec.ofNat 64 (dbits d 11 53 * 2048), e0 := one e0, e1 := one e1, e2 := one e2, e3 := one e3,
     s0 := dbits d 128 16, s1 := dbits d 144 16, s2 := dbits d 160 16, s3 := dbits d 176 16,
     wem := min wem 767, sr := if fmt.isNone then 0 else sr },
   (if fc ≥ 8 then 1 else 0) + z e0 + z e1 + z e2 + z e3 + (if dest && wem ≥ 768 then 1 else 0) +
     (if fmt.isNone && sr != 0 then 1 else 0))

/-- Element width in bits; a seam slot takes 512. -/
def dWidth (d : Desc) : Nat := match d.fmt with | some f => fmtWidth f | none => 512

/-- Columns of a sett (R76). -/
def dCols (d : Desc) : Nat := 512 / dWidth d

def extX (d : Desc) : Nat := dCols d * d.e0
def extY (d : Desc) : Nat := 32 * d.e1

/-- sett_addr of R78. -/
def settAddr (d : Desc) (c0 c1 c2 c3 : Nat) : U64 :=
  let n := c0 / 8 * d.s0 + c1 / 8 * d.s1 + (c1 % 8 * 8 + c0 % 8)
  let pl := c2 * d.s2 + c3 * d.s3
  BitVec.ofNat 64 ((faModule d.base).toNat * 2 ^ 49 + (faLocal d.base + n * 2048 + pl * 131072) % 2 ^ 49)

/-- elem_addr of R78: byte address and bit offset. -/
def elemAddr (d : Desc) (k : Coord) : U64 × Nat :=
  let cols := dCols d
  let bit := k.x % cols * dWidth d
  (addrAdd (settAddr d (k.x / cols) (k.y / 32) k.p k.q) (64 * (k.y % 32) + bit / 8), bit % 8)

/-- Sett index order (R56). -/
def settIndex (d : Desc) (c0 c1 c2 c3 : Nat) : Nat := ((c3 * d.e2 + c2) * d.e1 + c1) * d.e0 + c0

def settCount (d : Desc) : Nat := d.e0 * d.e1 * d.e2 * d.e3

/-- The coordinates of the sett of an index. -/
def settOf (d : Desc) (n : Nat) : Nat × Nat × Nat × Nat :=
  (n % d.e0, n / d.e0 % d.e1, n / (d.e0 * d.e1) % d.e2, n / (d.e0 * d.e1 * d.e2))

/-- The element at storage index `j` of the sett of index `n` (R76). -/
def coordAt (d : Desc) (n j : Nat) : Coord :=
  let s := settOf d n
  { x := s.1 * dCols d + j % dCols d, y := s.2.1 * 32 + j / dCols d, p := s.2.2.1, q := s.2.2.2 }

def settElems (d : Desc) : Nat := 32 * dCols d

/-- Blocks of 256 elements in a sett (R56). -/
def settBlocks (d : Desc) : Nat := 64 / dWidth d

/-- The sett that holds an element, and the element's storage index in it. -/
def settAt (d : Desc) (k : Coord) : Nat := settIndex d (k.x / dCols d) (k.y / 32) k.p k.q
def storageAt (d : Desc) (k : Coord) : Nat := k.y % 32 * dCols d + k.x % dCols d

def settRange (d : Desc) (n : Nat) : U64 × Nat :=
  let s := settOf d n
  (settAddr d s.1 s.2.1 s.2.2.1 s.2.2.2, 2048)

def viewRanges (d : Desc) : List (U64 × Nat) := (List.range (settCount d)).map (settRange d)

/-! ### Tile SRAM operands -/

def tileNo : UnitId → Nat
  | .tile t => t.val | _ => 0

/-- The fabric address of an offset of the executing tile's SRAM. -/
def sramAddr (b : Block) (u : UnitId) (off : Nat) : U64 := ownAddr b (sramBase + tileNo u * 0x200000 + off)

/-- An SRAM offset operand: its multiple and its bound (R205). -/
def sramOffset (mult bound : Nat) (x : U64) : Nat × Nat :=
  let r := min (x.toNat / mult * mult) bound
  (r, if r = x.toNat then 0 else 1)

/-- The bytes of [off, off + n) that lie within the executing tile's SRAM, as a range to read. -/
def sramPart (b : Block) (u : UnitId) (off n : Nat) : List (U64 × Nat) :=
  let m := min n (0x180000 - off)
  if m = 0 then [] else [(sramAddr b u off, m)]

/-! ### Write-enable maps -/

/-- The map bit of a destination sett (R85); map bytes beyond tile SRAM read as 0xFF (R86). -/
def wemBit (b : Block) (c : Nat) (u : UnitId) (d : Desc) (n : Nat) : Bool :=
  if d.wem = 0 then true
  else
    let o := d.wem * 2048 + n / 8
    if o < 0x180000 then (rdKey b (sramKey c (tileNo u) o)).getLsbD (n % 8) else true

def wemClamp (d : Desc) : Nat :=
  if d.wem ≠ 0 ∧ d.wem * 2048 + (settCount d + 7) / 8 > 0x180000 then 1 else 0

/-- The map bytes an instruction reads. -/
def mapReads (b : Block) (u : UnitId) (d : Desc) : List (U64 × Nat) :=
  if d.wem = 0 then [] else sramPart b u (d.wem * 2048) ((settCount d + 7) / 8)

/-! ### Scale records -/

/-- The fields of a scale record a reader or writer needs (R63). -/
structure Scale where
  mode : Bool
  grad : Bool
  scale : Nat
  hist : Nat
  step : Nat
  blocks : U64
deriving DecidableEq, Repr

def readScale (b : Block) (c : Nat) (i : UnitImg) (sr : U64) : Scale :=
  let h := readBytes b c i sr 24
  let byte (n : Nat) : Nat := (h.getD n 0).toNat
  { mode := (byte 1).testBit 0, grad := (byte 1).testBit 1, scale := byte 5, hist := byte 6,
    step := leNat ((h.drop 8).take 6), blocks := BitVec.ofNat 64 (leNat ((h.drop 16).take 8)) }

/-- Block scales apply (R55, R69). -/
def blockMode (s : Scale) : Bool := s.mode || s.hist = 0

/-- The address of a block's scale byte (R56). -/
def blockAddr (d : Desc) (s : Scale) (sett blk : Nat) : U64 := addrAdd s.blocks (sett * settBlocks d + blk)

/-- The scale exponent an element is read with (R55, R69); a record without a block array reads at 0. -/
def scaleExp (b : Block) (c : Nat) (i : UnitImg) (d : Desc) (k : Coord) : Int :=
  if d.sr = 0 then 0
  else
    let s := readScale b c i d.sr
    if blockMode s then
      if s.blocks = 0 then 0
      else ((readByte b c i (blockAddr d s (settAt d k) (storageAt d k / 256))).toNat : Int) - 127
    else (s.scale : Int) - 127

/-- The scale record's bytes and block scale array that a view's accesses use. -/
def scaleRanges (b : Block) (c : Nat) (i : UnitImg) (d : Desc) : List (U64 × Nat) :=
  if d.sr = 0 then []
  else
    let s := readScale b c i d.sr
    (d.sr, 5120) :: (if blockMode s && s.blocks != 0 then [(s.blocks, settCount d * settBlocks d)] else [])

/-! ### Elements -/

/-- The stored code of an element. -/
def elemCode (b : Block) (c : Nat) (i : UnitImg) (d : Desc) (k : Coord) : Nat :=
  let a := elemAddr d k
  let w := dWidth d
  leNat (readBytes b c i a.1 ((w + 7) / 8)) / 2 ^ a.2 % 2 ^ w

def elemSeam (b : Block) (c : Nat) (i : UnitImg) (d : Desc) (k : Coord) : Seam :=
  seamOfBytes (readBytes b c i (elemAddr d k).1 64)

/-- The value an element represents (R55, R57); a seam is rounded to binary64 with its events (R170).
[DEDUCED, log 25] -/
def elemValue (b : Block) (c : Nat) (i : UnitImg) (d : Desc) (k : Coord) : FVal × Ev :=
  match d.fmt with
  | some f => (fScale (scaleExp b c i d k) (fdecode f (elemCode b c i d k)), {})
  | none => seamRound .f64 (elemSeam b c i d k)

/-- The format an element enters the array in: a seam element is a binary64 value. -/
def elemFmt (d : Desc) : Fmt := d.fmt.getD .f64

/-! ### The rounding stream (R71 to R73) -/

def mixWord (x : U64) : U64 :=
  let a := (x ^^^ (x >>> 29)) * 0xA24B1C6E93F5D6C7
  let b := (a ^^^ (a >>> 32)) * 0x6F3E85D12BC94A0B
  b ^^^ (b >>> 27)

/-- The 16 bits of the stream (R71). -/
def streamBits (seed step tensor index : U64) : Nat :=
  let k := mixWord (seed ^^^ (step * 0xC2A95E1D7B34F08F))
  (mixWord (k ^^^ (tensor <<< 40) ^^^ index)).toNat / 2 ^ 48

/-- An index frame (R73): extents of the whole tensor and the view's origin. -/
structure Frame where
  n0 : Nat
  n1 : Nat
  n2 : Nat
  o0 : Nat
  o1 : Nat
  o2 : Nat
  o3 : Nat
deriving DecidableEq, Repr

/-- Where an index frame lies in tile SRAM, with its clamps (R205). -/
def frameOffset (i : UnitImg) (r : BitVec 5) : Nat × Nat := sramOffset 32 0x17FFE0 (sreg i r)

/-- The frame an instruction uses, from the register that names it, with its clamps (R73, R205). -/
def readFrame (b : Block) (c : Nat) (u : UnitId) (i : UnitImg) (r : BitVec 5) (d : Desc) : Frame × Nat :=
  if r = 0 then ({ n0 := extX d, n1 := extY d, n2 := d.e2, o0 := 0, o1 := 0, o2 := 0, o3 := 0 }, 0)
  else
    let off := frameOffset i r
    let w (j : Nat) : Nat := leNat (rdSram b c (tileNo u) (off.1 + 4 * j) 4)
    let z (j : Nat) : Nat := if w j = 0 then 1 else 0
    ({ n0 := max (w 0) 1, n1 := max (w 1) 1, n2 := max (w 2) 1, o0 := w 4, o1 := w 5, o2 := w 6, o3 := w 7 },
     off.2 + z 0 + z 1 + z 2 + z 3)

/-- The frame's bytes. -/
def frameReads (b : Block) (u : UnitId) (i : UnitImg) (r : BitVec 5) : List (U64 × Nat) :=
  if r = 0 then [] else sramPart b u (frameOffset i r).1 32

/-- element_index of R73, modulo 2^48. -/
def elemIndex (f : Frame) (k : Coord) : Nat :=
  ((((f.o3 + k.q) * f.n2 + (f.o2 + k.p)) * f.n1 + (f.o1 + k.y)) * f.n0 + (f.o0 + k.x)) % 2 ^ 48

/-- The tensor_id operand, clamped (R72). -/
def tensorId (x : U64) : Nat × Nat := if x.toNat ≤ 0x7FFFFF then (x.toNat, 0) else (0x7FFFFF, 1)

/-! ### The write path -/

/-- What an instruction hands to the write path for one element (R169). -/
inductive EVal where
  | v (x : FVal) (sticky : Bool)
  | pass (p : PassOut)
  | seam (s : Seam)
deriving DecidableEq, Repr

/-- How an instruction writes: mode, saturation, the registers of tensor_id and frame. -/
structure WMode where
  mode : RMode
  sat : Bool
  tid : BitVec 5
  frame : BitVec 5
deriving DecidableEq, Repr

/-- The write path of a destination rounds stochastically (R74). -/
def writesStoch (b : Block) (c : Nat) (i : UnitImg) (d : Desc) (m : WMode) : Bool :=
  d.fmt.isSome && (m.mode = .stoch || (d.sr != 0 && (readScale b c i d.sr).grad))

/-- What executing a tensor instruction produces before anything is written (R109). -/
structure TOut where
  /-- element writes in order: address, bit offset, bits, value -/
  writes : List (U64 × Nat × Nat × Nat) := []
  ev : Ev := {}
  /-- radd_u64 of the scale record's collect area: address, addend -/
  radds : List (U64 × Nat) := []
  /-- seams added into slots (MMA output 2) -/
  seams : List (U64 × Seam) := []
  /-- contribution to the step's scale digest (R398) -/
  digest : BitVec 128 := 0
  /-- seams of this instruction held in the spill area, from a slot of it (R121) -/
  spill : Nat := 0
  spillFrom : Nat := 0
deriving DecidableEq, Repr

def tOutAppend (x y : TOut) : TOut :=
  { writes := x.writes ++ y.writes, ev := evAdd x.ev y.ev, radds := x.radds ++ y.radds, seams := x.seams ++ y.seams,
    digest := x.digest ^^^ y.digest, spill := x.spill + y.spill, spillFrom := max x.spillFrom y.spillFrom }

/-- The value round_to receives, and the events of forming it. -/
def evalFor (f : Fmt) : EVal → FVal × Bool × Ev
  | .v x st => (x, st, {})
  | .pass p => passValue p
  | .seam s => let r := seamRound (if f = .f64 then .f64 else .f32) s; (r.1, false, r.2)

/-- The seam a slot of a seam view receives (R170, R191). -/
def evalSeam : EVal → Seam × Ev
  | .v x _ => (seamAdd x seamEmpty, {})
  | .pass p => passSeam p seamEmpty
  | .seam s => (s, {})

/-- The largest magnitude among finite nonzero values. -/
def maxMag (l : List FVal) : FVal :=
  l.foldl (fun m x => match x with
    | .fin _ n _ => if n = 0 then m else fMax m (fAbs x)
    | _ => m) (.fin false 0 0)

def cexpOf : FVal → Int
  | .fin _ m e => cexp m e | _ => 0

def clampI (lo hi x : Int) : Int := max lo (min hi x)

/-- Everything about the destination that one execution of the write path fixes before its elements. -/
structure WCtx where
  d : Desc
  f : Fmt
  sc : Option Scale
  mode : RMode
  sat : Bool
  frame : Frame
  tid : Nat
  seed : U64
  step : U64
deriving DecidableEq, Repr

def rbitsAt (w : WCtx) (k : Coord) : Nat :=
  if w.mode = .stoch then streamBits w.seed w.step (BitVec.ofNat 64 w.tid) (BitVec.ofNat 64 (elemIndex w.frame k)) else 0

/-- One block of a destination sett (the inner loops of R59): scale choice, then each element. A block that the
instruction covers in part is measured over the elements it covers; one it does not cover is left alone, with its scale
byte. [DEDUCED, log 29] -/
def writeBlock (w : WCtx) (n blk : Nat) (val : Coord → Option (EVal × Ev)) : TOut × FVal × Nat :=
  let ks := (List.range 256).map fun j => coordAt w.d n (blk * 256 + j)
  let vs := ks.filterMap fun k => (val k).map fun v =>
    let e := evalFor w.f v.1
    (k, e.1, e.2.1, evAdd v.2 e.2.2)
  if vs.isEmpty then ({}, .fin false 0 0, 0)
  else
    let mb := maxMag (vs.map fun v => v.2.1)
    let kb : Int := if fIsZero mb then 0 else cexpOf mb - fmtEf w.f
    let kc := clampI (-127) 128 kb
    let pick : Int × TOut := match w.sc with
      | none => (0, {})
      | some s =>
        if blockMode s then
          let cl : Nat := if kc = kb then 0 else 1
          if s.blocks = 0 then (0, { ev := evClamps (cl + 1) })
          else (kc, { ev := evClamps cl, writes := [(blockAddr w.d s n blk, 0, 8, (kc + 127).toNat)] })
        else ((s.scale : Int) - 127, {})
    let first : Bool := match w.sc with | some s => s.hist == 0 | none => false
    let out := vs.map fun v =>
      let r := convertTo w.f w.mode w.sat (rbitsAt w v.1) pick.1 v.2.1 v.2.2.1
      let a := elemAddr w.d v.1
      ((a.1, a.2, fmtWidth w.f, r.1), r.2, evAdd v.2.2.2 { sat := r.2.toNat, first := first.toNat })
    (tOutAppend pick.2
      { writes := out.map fun x => x.1, ev := (out.map fun x => x.2.2).foldl evAdd {} },
     mb, (out.filter fun x => x.2.1).length)

/-- The write path into a view of an element format (R59, R169): every enabled sett, block by block, then the collect
area. -/
def writeElems (b : Block) (c : Nat) (u : UnitId) (i : UnitImg) (d : Desc) (f : Fmt) (m : WMode)
    (val : Coord → Option (EVal × Ev)) : TOut :=
  let x := ctxOf b c
  let sc := if d.sr = 0 then none else some (readScale b c i d.sr)
  let grad := match sc with | some s => s.grad | none => false
  let mode := if grad then .stoch else m.mode
  let fr := if mode = .stoch then readFrame b c u i m.frame d else (⟨1, 1, 1, 0, 0, 0, 0⟩, 0)
  let tid := if mode = .stoch then tensorId (sreg i m.tid) else (0, 0)
  let w : WCtx := { d := d, f := f, sc := sc, mode := mode, sat := m.sat, frame := fr.1, tid := tid.1, seed := x.seed,
                    step := x.step.setWidth 64 }
  let stale : Nat := match sc with
    | some s => if !blockMode s && s.hist ≠ 0 && s.step ≠ x.step.toNat then 1 else 0
    | none => 0
  let setts := (List.range (settCount d)).filter fun n => wemBit b c u d n
  let blocks := setts.flatMap fun n => (List.range (settBlocks d)).map fun blk => writeBlock w n blk val
  let body := (blocks.map fun r => r.1).foldl tOutAppend { ev := evClamps (fr.2 + tid.2 + stale + wemClamp d) }
  let mAll := maxMag (blocks.map fun r => r.2.1)
  let nsat := (blocks.map fun r => r.2.2).foldl (· + ·) 0
  -- a map that disables every sett adds nothing to the record (R86, "When a map disables every sett")
  if d.sr = 0 || setts.isEmpty then body
  else
    let par := x.step.toNat % 2
    let area := addrAdd d.sr (0x140 + 0x20 * par)
    let bin := addrAdd d.sr (0x400 + 0x800 * par + 8 * (clampI (-128) 127 (cexpOf mAll) + 128).toNat)
    tOutAppend body
      { radds := (if fIsZero mAll then [] else [(bin, 1)]) ++ [(area, nsat), (addrAdd area 8, 1)] }

/-- The write path into a seam view (R170). -/
def writeSeams (b : Block) (c : Nat) (u : UnitId) (d : Desc) (val : Coord → Option (EVal × Ev)) : TOut :=
  let ks := ((List.range (settCount d)).filter fun n => wemBit b c u d n).flatMap fun n =>
    (List.range 32).map fun j => coordAt d n j
  let vs := ks.filterMap fun k => (val k).map fun v => (k, v)
  vs.foldl (fun t x =>
    let s := evalSeam x.2.1
    tOutAppend t { writes := [((elemAddr d x.1).1, 0, 512, leNat (seamBytes s.1))], ev := evAdd x.2.2 s.2 })
    { ev := evClamps (wemClamp d) }

/-- The write path of R169 into any destination; `val` is none at an element the instruction does not cover. -/
def writeView (b : Block) (c : Nat) (u : UnitId) (i : UnitImg) (d : Desc) (m : WMode)
    (val : Coord → Option (EVal × Ev)) : TOut :=
  match d.fmt with
  | some f => writeElems b c u i d f m val
  | none => writeSeams b c u d val

/-! ### Issue of a tensor instruction -/

/-- An address a tensor instruction cannot use (R110, R292). [DEDUCED, log 18] -/
def badTensorByte (b : Block) (c : Nat) (a : U64) : Bool :=
  match whereIs b c a with
  | .bad => true
  | .remote => !reachable b a
  | _ => false

/-- The lowest failing address of a list of ranges (R155): a range lies in one space of the map, so its first byte
and its page boundaries decide. [DESIGN CHOICE, log 17] -/
def lowestBad (b : Block) (c : Nat) (rs : List (U64 × Nat)) : Option U64 :=
  let bad := rs.flatMap fun r => ((List.range r.2).map (addrAdd r.1)).filter (badTensorByte b c)
  match bad with
  | [] => none
  | a :: t => some (t.foldl (fun m x => if x.toNat < m.toNat then x else m) a)

/-- The reads of a tensor instruction meet the memory code (R104, R268): the block after corrections and counts, the
block with refused lines as the zero bytes they supply (R168), the refused ranges, and whether a tile fault stopped it. -/
structure Met where
  b : Block
  view : Block
  refused : List (U64 × Nat)
  faulted : Bool
deriving DecidableEq, Repr

/-- Ranges read one after another: the block, the refused ranges, and whether a tile fault stopped it. -/
def meetEach (b : Block) (c : Nat) (u : UnitId) (rs : List (U64 × Nat)) : Block × List (U64 × Nat) × Bool :=
  rs.foldl (fun m r =>
    if m.2.2 then m
    else match meetRead m.1 c u r.1 r.2 with
      | .ok b1 => (b1, m.2.1, false)
      | .tileFault b1 => (b1, m.2.1, true)
      | .refused b1 => (b1, m.2.1 ++ [r], false)) (b, [], false)

/-- The bytes of a refused range as an instruction sees them: zero. -/
def zeroRange (b : Block) (c : Nat) (r : U64 × Nat) : Block :=
  match whereIs b c r.1 with
  | .mem k => wrList b k (List.replicate r.2 0)
  | _ => b

def meetReads (b : Block) (c : Nat) (u : UnitId) (rs : List (U64 × Nat)) : Met :=
  let m := meetEach b c u rs
  { b := m.1, view := m.2.1.foldl (fun x r => zeroRange x c r) m.1, refused := m.2.1, faulted := m.2.2 }

/-- Apply one element write: whole bytes, or a nibble merged into its byte. -/
def applyWrite (b : Block) (c : Nat) (u : UnitId) (w : U64 × Nat × Nat × Nat) : Block :=
  if w.2.2.1 % 8 = 0 then storeBytes b c u w.1 (leBytes (w.2.2.1 / 8) w.2.2.2)
  else
    let old := (readByte b c (img b c u) w.1).toNat
    let cur := old / 2 ^ w.2.1 % 2 ^ w.2.2.1
    storeBytes b c u w.1 [BitVec.ofNat 8 (old - cur * 2 ^ w.2.1 + w.2.2.2 % 2 ^ w.2.2.1 * 2 ^ w.2.1)]

abbrev ElemWrite := U64 × Nat × Nat × Nat

/-- A store put before others, joined with the first of them where they touch. -/
def joinRun (a : U64) (x : List Byte) (t : List (U64 × List Byte ⊕ ElemWrite)) : List (U64 × List Byte ⊕ ElemWrite) :=
  match t with
  | .inl y :: r => if y.1 = addrAdd a x.length then .inl (a, x ++ y.2) :: r else .inl (a, x) :: t
  | _ => .inl (a, x) :: t

def gatherOne (w : ElemWrite) (t : List (U64 × List Byte ⊕ ElemWrite)) : List (U64 × List Byte ⊕ ElemWrite) :=
  if w.2.2.1 % 8 = 0 then joinRun w.1 (leBytes (w.2.2.1 / 8) w.2.2.2) t
  else match t with
    | .inr x :: r =>
      if x.1 = w.1 ∧ w.2.1 = 0 ∧ x.2.1 = 4 ∧ w.2.2.1 = 4 ∧ x.2.2.1 = 4 then
        joinRun w.1 [BitVec.ofNat 8 (w.2.2.2 % 16 + 16 * (x.2.2.2 % 16))] r
      else .inr w :: t
    | _ => .inr w :: t

/-- Element writes of consecutive bytes, gathered in their order into stores, so that a controller sees a line and not its
elements (R274); a lone nibble stays one element write. -/
def gather (l : List ElemWrite) : List (U64 × List Byte ⊕ ElemWrite) := l.foldr gatherOne []

/-- Add a seam into its slot: of this module's memory through its controller, which allocates the slot (R278), or by a
RADD of kind 6. -/
def addSeam (b : Block) (c : Nat) (u : UnitId) (a : U64) (x : Seam) : Block :=
  match whereIs b c a with
  | .mem k =>
    let r := updateMem b k (faLocal a) 64 fun old => seamBytes (seamMerge x (seamOfBytes old))
    if r.2.isSome then cacheTouch r.1 c (faLocal a) (rdKeys b k 64) else setImg r.1 c u (countRefusal (img r.1 c u) a 6)
  | .remote => startOp b c u .access [(a, .radd 6 0 0 1 (seamBytes x), 0)]
  | _ => b

/-- Apply what a tensor instruction produced: writes, collect additions and seam additions leave in that order. -/
def applyOut (b : Block) (c : Nat) (u : UnitId) (t : TOut) : Block :=
  let b1 := (gather t.writes).foldl (fun b w => match w with
    | .inl s => storeBytes b c u s.1 s.2
    | .inr e => applyWrite b c u e) b
  let b2 := t.radds.foldl (fun b r =>
    startOp b c u .plain [(r.1, .radd 1 0 0 1 (leBytes 8 r.2), 0)]) b1
  t.seams.foldl (fun b r => addSeam b c u r.1 r.2) b2

/-- Memory key of slot j of tile t's spill area in context c: 64-byte slots in the second and third of the tile's three
pages of the save area (R121, R466). -/
def spillKey (b : Block) (c t j : Nat) : Nat :=
  ((b.pages.filter fun e => e.2 == saveOwner c).map Prod.fst).getD (3 * t + 1 + j * 64 / 0x200000) 0 * 0x200000 +
    j * 64 % 0x200000

/-- Seams of tile `u` from spill slot `first` on that the memory controller holds: counted in POOL_SPILL, and each
allocated in the controller's cache (R121, R131, R278). -/
def countSpill (b : Block) (c : Nat) (u : UnitId) (first n : Nat) : Block :=
  if n = 0 then b
  else
    let h := tileHw b (tileNo u)
    (List.range n).foldl (fun z j =>
        let l := spillKey b c (tileNo u) (first + j)
        cacheTouch z c l (rdKeys z l 64))
      (setTileHw b (tileNo u) { h with poolSpill := satAdd h.poolSpill n })

/-! ### The tally buffer, the Porter and the array -/

/-- The operation's results or seams pass through the tally buffer (R100, R120). -/
def usesTally (op : Nat) : Bool := decide (op ≤ 0x06) || op == 0x0B || op == 0x0E || op == 0x0F

/-- The operation's data passes through the Porter (R123): copies, and a transposed operand of MMA. -/
def usesPorter (op : Nat) (o : Ops) : Bool := (decide (0x07 ≤ op) && decide (op ≤ 0x0B)) || (op == 0 && (bit o 2 || bit o 3))

/-- What reads of the tally buffer and of the Porter meet (R104): corrected words are counted in BUF_CORR, uncorrectable
ones in UNCORR, and the first of these is answered as the cause of a tile fault (R129). [DESIGN CHOICE, log 97] -/
def meetBuffers (b : Block) (t : Nat) (tally porter : Bool) : Block × Option Nat :=
  let h := tileHw b t
  let met := (if tally then h.tallyErrs.map fun e => (3, eccDecode e) else []) ++
    (if porter then h.porterErrs.map fun e => (4, eccDecode e) else [])
  if met.isEmpty then (b, none)
  else
    let bad := met.filter fun x => x.2 == .bad
    let corr := (met.filter fun x => match x.2 with | .single _ _ => true | _ => false).length
    (setTileHw b t { h with
        bufCorr := satAdd h.bufCorr corr, uncorr := satAdd h.uncorr bad.length
        tallyErrs := if tally then [] else h.tallyErrs, porterErrs := if porter then [] else h.porterErrs },
     bad.head?.map Prod.fst)

/-- The residue unit's check of a slice product (R113). -/
def residueOk (a b m : Int) : Bool := a % 7 * (b % 7) % 7 == m % 7

/-- The failed checks of an array instruction of `blocks` blocks, in block order (R114). -/
def failedChecks (h : TileHw) (blocks : Nat) : List SliceErr :=
  (List.range blocks).flatMap fun n => h.sliceErrs.filter fun e => e.block == n && !residueOk e.a e.b e.m

/-- The re-executions of an array instruction (R114): each failed check but a third counts one, and the slice products
it has met are behind it. A third failure is answered. -/
def recheck (b : Block) (t blocks : Nat) : Block × Option SliceErr :=
  let h := tileHw b t
  let fails := failedChecks h blocks
  if h.sliceErrs.isEmpty || blocks = 0 then (b, none)
  else
    (setTileHw b t { h with
        residueRetry := satAdd h.residueRetry (min fails.length 2)
        sliceErrs := h.sliceErrs.filter fun e => decide (blocks ≤ e.block) }, fails[2]?)

/-- How an array instruction falls into blocks (R111): how many, and what its first `n` blocks alone commit. -/
structure ArrayOp where
  blocks : UnitImg → Nat
  part : Nat → Nat → UnitImg → Block → TOut × UnitImg

/-- An instruction of another unit. -/
def noArray : ArrayOp := { blocks := fun _ => 0, part := fun _ _ i _ => ({}, i) }

/-- Leave what the instruction's products and its own new registers make of the block `b`. -/
def commitOut (b : Block) (c : Nat) (u : UnitId) (refused : List (U64 × Nat)) (r : TOut × UnitImg) : Block :=
  let j := refused.foldl (fun x a => countRefusal x a.1 6) r.2
  let b1 := applyOut (setImg (countSpill b c u r.1.spillFrom r.1.spill) c u (countEv j r.1.ev)) c u r.1
  let x := ctxOf b1 c
  if r.1.digest = 0 then b1 else setCtx b1 c { x with scaleDigest := x.scaleDigest ^^^ r.1.digest }

/-- A tensor instruction (R109, R110, R168): every address is checked before anything is written, then heap and seam
space (R155 gives no order among the causes of one instruction); remote operands are fetched; then the instruction
executes on what it read, writes, and retires. An array instruction whose residue checks fail re-executes at most twice;
a third failure is a tile fault, and the blocks before it stand (R114). `run` answers the products and the unit's own new
registers and handles. [DESIGN CHOICE, log 17; DEDUCED, log 19] -/
def tensorEff (u : UnitId) (op : Nat) (o : Ops) (legal : Bool) (array : ArrayOp) (b : Block)
    (exc : Nat → UnitImg → Option (Nat × U64))
    (reads writes : Nat → UnitImg → List (U64 × Nat))
    (run : Nat → UnitImg → Block → TOut × UnitImg) : Block :=
  let w := mkWord 16 op o
  issue b u w (isTile u && legal) fun c i =>
    match lowestBad b c (reads c i ++ writes c i) with
    | some a => takeExc b c u 3 a w
    | none =>
      if (reads c i).any fun r => missing b c i r.1 r.2 then fetchRemote b c u w (reads c i)
      else match exc c i with
        | some e => takeExc b c u e.1 e.2 w
        | none =>
          let m := meetReads b c u (reads c i)
          let f := meetBuffers m.b (tileNo u) (usesTally op) (usesPorter op o)
          let k := recheck f.1 (tileNo u) (array.blocks i)
          if m.faulted then m.b
          else match f.2, k.2 with
            | some cause, _ => tileFault f.1 (tileNo u) cause 0 i.pc
            | none, some e =>
              let r := array.part e.block c i m.view
              tileFault (commitOut k.1 c u m.refused ({ r.1 with radds := [], spill := 0 }, r.2)) (tileNo u) 1 (e.row / 2) i.pc
            | none, none =>
              let b2 := commitOut k.1 c u m.refused (run c i m.view)
              retireAfter b2 c u w (img b2 c u)

/-! ### Products of the field of R381 -/

/-- Multiply by x modulo x^128 + x^7 + x^2 + x + 1. -/
def gfStep (a : BitVec 128) : BitVec 128 := (a <<< 1) ^^^ (if a.getLsbD 127 then 0x87#128 else 0)

def gfMulN : Nat → BitVec 128 → BitVec 128 → BitVec 128
  | 0, _, _ => 0
  | n + 1, a, b => (if b.getLsbD 0 then a else 0) ^^^ gfMulN n (gfStep a) (b >>> 1)

def gf128Mul (a b : BitVec 128) : BitVec 128 := gfMulN 128 a b

def gfPowN : Nat → BitVec 128 → Nat → BitVec 128
  | 0, _, _ => 1
  | n + 1, a, e => let r := gfPowN n (gf128Mul a a) (e / 2); if e % 2 = 1 then gf128Mul a r else r

def gf128Pow (a : BitVec 128) (e : Nat) : BitVec 128 := gfPowN 66 a e

/-! ### Coverage of views that differ (R530) -/

/-- The extents an instruction covers on columns, rows and planes. -/
structure Cover where
  x : Nat
  y : Nat
  p : Nat
  q : Nat
deriving DecidableEq, Repr

def extents (d : Desc) : Cover := ⟨extX d, extY d, d.e2, d.e3⟩

/-- The smaller extent on each axis, and how many axes differ. -/
def coverMin (a b : Cover) : Cover × Nat :=
  (⟨min a.x b.x, min a.y b.y, min a.p b.p, min a.q b.q⟩,
   (if a.x = b.x then 0 else 1) + (if a.y = b.y then 0 else 1) + (if a.p = b.p then 0 else 1) +
     (if a.q = b.q then 0 else 1))

def inCover (v : Cover) (k : Coord) : Bool :=
  decide (k.x < v.x) && decide (k.y < v.y) && decide (k.p < v.p) && decide (k.q < v.q)

/-- What a destination view makes an instruction check: its setts, its scale record and block scale array. -/
def destRanges (b : Block) (c : Nat) (i : UnitImg) (d : Desc) : List (U64 × Nat) :=
  viewRanges d ++ scaleRanges b c i d

/-- What a source view makes an instruction read. -/
def sourceRanges (b : Block) (c : Nat) (i : UnitImg) (d : Desc) : List (U64 × Nat) :=
  viewRanges d ++ scaleRanges b c i d

/-- What an instruction reads of its destination: the scale record, the setts where a nibble is merged, the map, and the
index frame where the write path rounds stochastically. -/
def destReads (b : Block) (c : Nat) (u : UnitId) (i : UnitImg) (d : Desc) (m : WMode) : List (U64 × Nat) :=
  scaleRanges b c i d ++ (if dWidth d = 4 then viewRanges d else []) ++ mapReads b u d ++
    (if writesStoch b c i d m then frameReads b u i m.frame else [])

end Sys2Proof.Machine
end

