-- ==== Sys2Proof/Machine/Remote.lean ====
section
/-!
DEFINITION. The fabric class (R192 to R199), the timeout and wake of WAITC (R125 to R128), and LGF (R203).
-/
namespace Sys2Proof.Machine

/-- A local address operand: a foreign module number is replaced by the own one, with one clamp (R205). -/
def localOp (b : Block) (a : U64) : U64 × Nat :=
  if faModule a = b.geo.own then (a, 0) else (ownAddr b (faLocal a), 1)

/-- A counter address: low bits cleared, with one clamp (R205). -/
def counterOp (x : U64 × Nat) : U64 × Nat := let r := clearLow 3 x.1; (r.1, x.2 + r.2)

/-- A byte count, at most 2^24 (R205). -/
def byteCount (x : U64) : Nat × Nat := if x.toNat ≤ 2 ^ 24 then (x.toNat, 0) else (2 ^ 24, 1)

/-- Read local source bytes for an operation: a refused line supplies zero bytes. -/
def localData (b : Block) (c : Nat) (u : UnitId) (a : U64) (n : Nat) : ReadOut × List Byte :=
  match meetRead b c u a n with
  | .ok b1 => (.ok b1, readBytes b1 c (img b c u) a n)
  | .refused b1 => (.ok b1, List.replicate n 0)
  | .tileFault b1 => (.tileFault b1, [])

/-- Issue of a remote operation: a full port waits at issue (R192); local ranges are checked (R110); then `eff` on
the data of the source range. -/
def remoteIssue (b : Block) (u : UnitId) (op : Nat) (o : Ops) (legal : Bool) (ranges : UnitImg → List (U64 × Nat))
    (src : UnitImg → U64 × Nat) (eff : Nat → UnitImg → List Byte → Block → Block) : Block :=
  let w := mkWord 20 op o
  issue b u w legal fun c i =>
    match ((ranges i).filterMap fun r => badByte b c r.1 r.2) with
    | x :: t => takeExc b c u 3 (t.foldl (fun m y => if y.toNat < m.toNat then y else m) x) w
    | [] =>
      if portFull i then park b c u i .room w
      else
        let d := localData b c u (src i).1 (src i).2
        match d.1 with
        | .ok b1 => eff c i d.2 b1
        | .refused b1 => b1
        | .tileFault b1 => b1

/-- PUT pieces: the data cut at the 256-byte boundaries of the destination. [DEDUCED, log 19] -/
def putPieces (a : U64) (x : List Byte) : List (U64 × ReqOp × U64) :=
  (cuts a x.length).map fun p => (p.1, .put ((x.drop (p.1 - a).toNat).take p.2), 0)

/-- Start the operation and retire: the requests leave on their own (R192). -/
def startRetire (b : Block) (c : Nat) (u : UnitId) (clamps : Nat) (fin : OpEnd) (ps : List (U64 × ReqOp × U64)) : Block :=
  let b1 := startOp b c u fin ps
  retire b1 c u (countEv (img b1 c u) (evClamps clamps))

def putSrc (b : Block) (o : Ops) (i : UnitImg) : U64 × Nat :=
  ((localOp b (sreg i (fa o))).1, (byteCount (sreg i (fc o))).1)

/-- Clamps of a local address and a byte count: of no byte the address is not used, and its clamp not counted (R153). -/
def rangeClamps (b : Block) (a n : U64) : Nat := (if n = 0 then 0 else (localOp b a).2) + (byteCount n).2

def putClamps (b : Block) (o : Ops) (i : UnitImg) : Nat := rangeClamps b (sreg i (fa o)) (sreg i (fc o))

def putEff (u : UnitId) (o : Ops) (b : Block) : Block :=
  remoteIssue b u 0x00 o (legalPut o) (fun i => [putSrc b o i]) (putSrc b o) fun c i x b =>
    startRetire b c u (putClamps b o i) .plain (putPieces (sreg i (fb o)) x)

/-- PUTS' counter lies on the destination's module (R194, R205). -/
def putsCounter (i : UnitImg) (o : Ops) : U64 × Nat :=
  let a := sreg i (fe o)
  let d := sreg i (fb o)
  counterOp (if faModule a = faModule d then (a, 0)
    else (BitVec.ofNat 64 ((faModule d).toNat * 2 ^ 49 + faLocal a), 1))

def putsEff (u : UnitId) (o : Ops) (b : Block) : Block :=
  remoteIssue b u 0x03 o (legalPuts o) (fun i => [putSrc b o i]) (putSrc b o) fun c i x b =>
    startRetire b c u (putClamps b o i + (putsCounter i o).2) (.signal (putsCounter i o).1 (sreg i (fd o)))
      (putPieces (sreg i (fb o)) x)

/-- GET's local counter; register s0 names none (R193). -/
def getCounter (b : Block) (i : UnitImg) (o : Ops) : Option U64 × Nat :=
  if fe o = 0 then (none, 0)
  else let r := counterOp (localOp b (sreg i (fe o))); (some r.1, r.2)

def getDest (b : Block) (o : Ops) (i : UnitImg) : U64 × Nat :=
  ((localOp b (sreg i (fb o))).1, (byteCount (sreg i (fc o))).1)

def getRanges (b : Block) (o : Ops) (i : UnitImg) : List (U64 × Nat) :=
  getDest b o i :: (match (getCounter b i o).1 with | some a => [(a, 8)] | none => [])

def getEff (u : UnitId) (o : Ops) (b : Block) : Block :=
  remoteIssue b u 0x01 o (legalGet o) (getRanges b o) (fun i => ((getDest b o i).1, 0)) fun c i _ b =>
    let d := getDest b o i
    let a := sreg i (fa o)
    startRetire b c u (rangeClamps b (sreg i (fb o)) (sreg i (fc o)) + (getCounter b i o).2)
      (.get (getCounter b i o).1) ((cuts a d.2).map fun p => (p.1, .get p.2, d.1 + (p.1 - a)))

/-! ### RADD -/

/-- Destination element bytes by kind (R195). -/
def raddDest (kind : Nat) : Nat :=
  if kind = 0 ∨ kind = 3 then 4 else if kind = 1 ∨ kind = 4 then 8 else if kind = 2 then 2 else 64

/-- Source element bits by kind and format. -/
def raddSrcBits (kind fmt : Nat) : Nat :=
  if kind = 5 then fmtWidth ((fmtOfCode fmt).getD .f64) else 8 * raddDest kind

/-- The bytes `n` source elements from element `j` on take, N4 codes packed by R77. -/
def raddSlice (w j n : Nat) (x : List Byte) : List Byte :=
  if w % 8 = 0 then (x.drop (j * w / 8)).take (n * w / 8)
  else
    let nib (k : Nat) : Nat := (x.getD (k / 2) 0).toNat / 16 ^ (k % 2) % 16
    (List.range ((n + 1) / 2)).map fun t =>
      BitVec.ofNat 8 (nib (j + 2 * t) + 16 * (if 2 * t + 1 < n then nib (j + 2 * t + 1) else 0))

/-- The element count, the largest within 2^24 destination bytes (R205). [DEDUCED, log 32] -/
def raddCount (kind : Nat) (x : U64) : Nat × Nat :=
  let m := 2 ^ 24 / raddDest kind
  if x.toNat ≤ m then (x.toNat, 0) else (m, 1)

/-- Clear the low bits of an address below a power-of-two size, with one clamp. -/
def alignTo (n : Nat) (x : U64) : U64 × Nat :=
  (BitVec.ofNat 64 (x.toNat / n * n), if x.toNat % n = 0 then 0 else 1)

/-- The scale exponent operand of kind 5, clamped (R205). -/
def raddK (x : U64) : Int × Nat :=
  if x.toInt < -127 then (-127, 1) else if x.toInt > 128 then (128, 1) else (x.toInt, 0)

/-- [DEDUCED, log 19] -/
def raddSrc (b : Block) (o : Ops) (i : UnitImg) : U64 × Nat :=
  let n := (raddCount (bits o 0 4) (sreg i (fc o))).1
  ((localOp b (sreg i (fa o))).1, (n * raddSrcBits (bits o 0 4) (bits o 4 4) + 7) / 8)

/-- RADD requests: cut at the 256-byte boundaries of the destination. -/
def raddPieces (kind fmt : Nat) (k : Int) (dst : U64) (n : Nat) (x : List Byte) : List (U64 × ReqOp × U64) :=
  let ds := raddDest kind
  (cuts dst (n * ds)).map fun p =>
    let j := (p.1 - dst).toNat / ds
    (p.1, .radd kind fmt k (p.2 / ds) (raddSlice (raddSrcBits kind fmt) j (p.2 / ds) x), 0)

def raddEff (u : UnitId) (o : Ops) (b : Block) : Block :=
  remoteIssue b u 0x02 o (legalRadd o) (fun i => [raddSrc b o i]) (raddSrc b o) fun c i x b =>
    let kind := bits o 0 4
    let n := raddCount kind (sreg i (fc o))
    let d := alignTo (raddDest kind) (sreg i (fb o))
    let k := if kind = 5 then raddK (sreg i (fe o)) else (0, 0)
    startRetire b c u (if n.1 = 0 then 0 else (localOp b (sreg i (fa o))).2 + n.2 + d.2 + k.2) .plain
      (raddPieces kind (bits o 4 4) k.1 d.1 n.1 x)

/-! ### WAITC -/

def waitcAddr (b : Block) (i : UnitImg) (o : Ops) : U64 × Nat := counterOp (localOp b (sreg i (fa o)))

/-- The timeout in 25 MHz periods, clamped (R205). -/
def waitcLimit (i : UnitImg) (o : Ops) : Nat × Nat :=
  let x := (sreg i (fc o)).toNat
  if x ≤ 2 ^ 32 then (x, 0) else (2 ^ 32, 1)

/-- The condition of R197. -/
def waitcMet (cond : Nat) (x v : U64) : Bool :=
  if cond = 0 then decide (v.toNat ≤ x.toNat) else if cond = 1 then x == v else x != v

/-- The unit's pending wake is taken, or its watch is disarmed (R125, R126). -/
def takeWake (b : Block) (u : UnitId) : Block := { b with wakes := b.wakes.filter fun k => k != sysUnit u }

def waitcRetire (b : Block) (c : Nat) (u : UnitId) (i : UnitImg) (o : Ops) (r : U64) : Block :=
  retire (takeWake b u) c u (countEv (setS i (fd o) r) (evClamps ((waitcAddr b i o).2 + (waitcLimit i o).2)))

/-- WAITC tests its counter word: met retires with 0; a timeout of 0 that is not met retires with 1; else it waits. A word
that the memory code cannot correct is tested by nothing: the context has halted, and the instruction stands.
[DEDUCED, log 98] -/
def waitcTest (b : Block) (c : Nat) (u : UnitId) (i : UnitImg) (o : Ops) (w : U64) : Block :=
  let a := (waitcAddr b i o).1
  match meetRead b c u a 8 with
  | .tileFault b1 => b1
  | .refused b1 => park b1 c u i .counter w
  | .ok b1 =>
    if waitcMet (bits o 0 2) (BitVec.ofNat 64 (leNat (readBytes b1 c i a 8))) (sreg i (fb o)) then waitcRetire b1 c u i o 0
    else if (waitcLimit i o).1 = 0 then waitcRetire b1 c u i o 1
    else park b1 c u i .counter w

def waitcEff (u : UnitId) (o : Ops) (b : Block) : Block :=
  let w := mkWord 20 0x04 o
  issue b u w (legalWaitc o) fun c i =>
    match badByte b c (waitcAddr b i o).1 8 with
    | some x => takeExc b c u 3 x w
    | none => waitcTest b c u i o w

/-- The clock of a gated tile runs again: counted in GATE_WAKE (R126); with TILE_POWER.GATE clear it never stopped
(R128). [DEDUCED, log 34] -/
def gateWake (b : Block) : UnitId → Block
  | .tile t =>
    let h := tileHw b t.val
    if h.gate then setTileHw b t.val { h with gateWake := satAdd h.gateWake 1 } else b
  | _ => b

/-- The timeout of a waiting WAITC expires (R127, R197): it writes 1 and retires. -/
def waitcTimeoutEff (u : UnitId) (b : Block) : Block :=
  match waitCtx b u with
  | some (c, .counter, w) => waitcRetire (gateWake b u) c u (img b c u) (w.setWidth 52) 1
  | _ => b

/-- A wake arrives at a waiting unit (R126): the counter word is read again; WAITC retires or waits on.
[DEDUCED, log 35] -/
def tileWakeEff (u : UnitId) (b : Block) : Block :=
  match waitCtx b u with
  | some (c, .counter, w) =>
    waitcTest (gateWake (takeWake b u) u) c u (img b c u) (w.setWidth 52) w
  | _ => b

/-! ### FENCE and LGF -/

/-- The modules FENCE covers (R198). -/
def fenceScope (i : UnitImg) (o : Ops) (m : BitVec 15) : Bool := !bit o 0 || faModule (sreg i (fa o)) == m

/-- FENCE: waits while a request of its scope is open; then reports each refusal of its scope once. -/
def fenceTest (b : Block) (c : Nat) (u : UnitId) (i : UnitImg) (o : Ops) (w : U64) : Block :=
  if scopeOpen b c u (fenceScope i o) then park b c u i .scope w
  else
    let mine := i.refus.filter fun e => fenceScope i o (BitVec.ofNat 15 e.1)
    let n := (mine.map Prod.snd).foldl (· + ·) 0
    retire b c u (setS { i with refus := i.refus.filter fun e => !fenceScope i o (BitVec.ofNat 15 e.1) } (fd o)
      (BitVec.ofNat 64 n))

def fenceEff (u : UnitId) (o : Ops) (b : Block) : Block :=
  let w := mkWord 20 0x05 o
  issue b u w (legalFence o) fun c i => fenceTest b c u i o w

/-- COLL's request block, its low bits and module number clamped (R205). -/
def collBlock (b : Block) (i : UnitImg) (o : Ops) : U64 × Nat :=
  let l := localOp b (sreg i (fa o))
  let r := alignTo 64 l.1
  (r.1, l.2 + r.2)

/-- A request block as the engine copies it (R199). [DEDUCED, log 19] -/
def readCollReq (seq : Nat) (x : List Byte) : CollReq :=
  let w (t : Nat) : U64 := BitVec.ofNat 64 (leNat ((x.drop t).take 8))
  { seq := seq, kind := (x.getD 0 0).toNat, counter := w 8,
    args := (List.range 6).map fun j => w (16 + 8 * j), stage := 0, block := x }

/-- The fabric engine of a unit's region. -/
def engineOf (u : UnitId) : UnitId := .engine (Fin.ofNat 12 (regionOf u))

/-- COLL (R199): waits at issue while the engine holds 64 requests. A block that the memory code cannot correct is not
copied: the context has halted, and the instruction stands. [DEDUCED, log 98] -/
def collEff (u : UnitId) (o : Ops) (b : Block) : Block :=
  let w := mkWord 20 0x08 o
  issue b u w (isTile u && legalColl o) fun c i =>
    let a := collBlock b i o
    match badByte b c a.1 64 with
    | some x => takeExc b c u 3 x w
    | none =>
      let e := img b c (engineOf u)
      if e.colls.length ≥ 64 then park b c u i .room w
      else match meetRead b c u a.1 64 with
        | .tileFault b1 => b1
        | .refused b1 => park b1 c u i .room w
        | .ok b1 =>
          let r := readCollReq e.collSeq (readBytes b1 c i a.1 64)
          let b2 := setImg b1 c (engineOf u) { e with colls := e.colls ++ [r], collSeq := e.collSeq + 1 }
          retire b2 c u (countEv (setS i (fd o) (BitVec.ofNat 64 e.collSeq)) (evClamps a.2))

/-- How a write combines with a program field of the ledger record (R203): the lowest tile that wrote, and the value. -/
def lgfCombine (n t : Nat) (old : Option (Nat × U64)) (x : U64) : Nat × U64 :=
  match old with
  | none => (t, x)
  | some (t0, y) =>
    if n < 4 then (if t ≤ t0 then (t, x) else (t0, y))
    else if n < 8 then (min t t0, y + x)
    else if n < 12 then (min t t0, if y.toNat < x.toNat then x else y)
    else (min t t0, y ||| x)

def lgfEff (u : UnitId) (o : Ops) (b : Block) : Block :=
  issue b u (mkWord 28 0x00 o) (isTile u && legalLgf o) fun c i =>
    let n := bits o 0 4
    let x := if bit o 4 then freg i (fa o) else sreg i (fa o)
    let k := ctxOf b c
    retire (setCtx b c { k with lgf := tins k.lgf n (lgfCombine n (tileNo u) (tlook k.lgf n) x) }) c u i

end Sys2Proof.Machine
end

