-- ==== Sys2Proof/Machine/Fabric.lean ====
section
/-!
DEFINITION. What a target does with a request (R293), memory-side adds (R275 to R278, R302), and how a request ends at
its requester (R295 to R299, R322, R324).
-/
namespace Sys2Proof.Machine

/-! ### Memory-side arithmetic -/

/-- One float add at the target: the sum's code, and whether it made a NaN of operands that were none (R277). -/
def floatAdd (f : Fmt) (x y : Nat) : Nat × Nat :=
  let r := finish f .nearest (fAdd (fdecode f x) (fdecode f y))
  (r.1, r.2.nangen)

/-- Element j of kind 5's packed source (R77). -/
def srcCode (w j : Nat) (x : List Byte) : Nat := leNat (x.drop (j * w / 8) |>.take ((w + 7) / 8)) / 2 ^ (j * w % 8) % 2 ^ w

/-- One element of a RADD at its bytes: new bytes and NAN_GEN count. -/
def raddElem (kind fmt : Nat) (k : Int) (j : Nat) (src old : List Byte) : List Byte × Nat :=
  let ds := raddDest kind
  let s := leNat ((src.drop (j * ds)).take ds)
  if kind = 0 ∨ kind = 1 then (leBytes ds ((leNat old + s) % 2 ^ (8 * ds)), 0)
  else if kind = 2 then let r := floatAdd .bf16 (leNat old) s; (leBytes ds r.1, r.2)
  else if kind = 3 then let r := floatAdd .f32 (leNat old) s; (leBytes ds r.1, r.2)
  else if kind = 4 then let r := floatAdd .f64 (leNat old) s; (leBytes ds r.1, r.2)
  else if kind = 5 then
    let f := (fmtOfCode fmt).getD .f64
    (seamBytes (seamAdd (fScale k (fdecode f (srcCode (fmtWidth f) j src))) (seamOfBytes old)), 0)
  else (seamBytes (seamMerge (seamOfBytes ((src.drop (j * 64)).take 64)) (seamOfBytes old)), 0)

/-- Count NAN_GEN of a float add at the controller for the context that owns the address; an add in a tile window is
the owning tile's (R277). -/
def countNan (b : Block) (c l n : Nat) : Block :=
  if n = 0 then b
  else match spaceOf l with
    | .stack k => let m := mcOf b k; setMc b k { m with nangen := tput m.nangen 0 c (satAdd (tget m.nangen 0 c) n) }
    | .tier => { b with ct := { b.ct with nangen := tput b.ct.nangen 0 c (satAdd (tget b.ct.nangen 0 c) n) } }
    | .window t _ =>
      let u := UnitId.tile (Fin.ofNat 1152 t)
      setImg b c u (countEv (img b c u) { nangen := n })
    | _ => b

/-- Perform the elements of a RADD from element j on. -/
def raddRun (kind fmt : Nat) (k : Int) (src : List Byte) (c key l : Nat) : Nat → Nat → Block → Block
  | 0, _, b => b
  | n + 1, j, b =>
    let ds := raddDest kind
    let old := rdKeys b (key + j * ds) ds
    let r := raddElem kind fmt k j src old
    let b1 := if kind ≥ 5 then cacheTouch b c (l + j * ds) old else b
    raddRun kind fmt k src c key l n (j + 1) (countNan (wrKeys b1 (key + j * ds) r.1) c (l + j * ds) r.2)

/-! ### The target (R293) -/

/-- The bytes a request touches. -/
def reqLen : ReqOp → Nat
  | .put d => d.length
  | .get n => n
  | .signal _ => 8
  | .take => 64
  | .radd kind _ _ n _ => n * raddDest kind

def jobOf (e : U32) : Nat := e.toNat / 2 ^ 20
def genOf (e : U32) : Nat := e.toNat % 2 ^ 20

/-- The resident context of a job. -/
def ctxOfJob (b : Block) (job : Nat) : Option Nat :=
  (b.ctxs.find? fun e => jobOf e.2.epoch == job).map Prod.fst

inductive Verdict where
  | refuse (st : Nat)
  | hold
  | perform (c key : Nat)
deriving DecidableEq, Repr

/-- Steps 4 to 6 of R293. -/
def judgeAddr (b : Block) (c l n : Nat) : Verdict :=
  let last := if n = 0 then l else l + n - 1
  match localWhere b c l, localWhere b c last with
  | .mem k, .mem _ =>
    match spaceOf l with
    | .window t _ =>
      if (tileHw b t).faulted then .refuse 5 else if b.running = some c then .perform c k else .hold
    | _ => .perform c k
  | _, _ => .refuse 4

/-- Steps 1 to 6 of R293. -/
def judge (b : Block) (r : Request) : Verdict :=
  if b.fab.fenced then .refuse 7
  else match ctxOfJob b (jobOf r.epoch) with
    | none => .refuse 3
    | some c =>
      let g := genOf (ctxOf b c).epoch
      if genOf r.epoch < g then .refuse 1
      else if g < genOf r.epoch then .refuse 2
      else judgeAddr b c (faLocal r.addr) (reqLen r.op)

/-- The target's counters of refusals (R323, R326). -/
def countRefused (f : Fab) (st : Nat) : Fab :=
  if st = 1 then { f with staleIn := satAdd f.staleIn 1 }
  else if st = 2 then { f with earlyIn := satAdd f.earlyIn 1 }
  else if st = 3 ∨ st = 4 then { f with prot := satAdd f.prot 1 }
  else if st = 7 then { f with fencedIn := satAdd f.fencedIn 1 }
  else f

/-- A stack in self-refresh leaves it at the first request (R283). -/
def wakeStack (b : Block) (l : Nat) : Block :=
  match spaceOf l with
  | .stack k => let m := mcOf b k; if m.selfRefresh then setMc b k { m with selfRefresh := false } else b
  | _ => b

/-- The outcome of a read-modify-write as a response: status, and data. -/
def answerOf (keep : Bool) (r : Block × Option (List Byte)) : Block × Nat × List Byte :=
  match r.2 with
  | some x => (r.1, 0, if keep then x else [])
  | none => (r.1, 6, [])

/-- Steps 7 and 8: the request's effect, the status and the data of its response. -/
def performReq (b : Block) (c key : Nat) (a : U64) (op : ReqOp) : Block × Nat × List Byte :=
  let l := faLocal a
  let b0 := wakeStack b l
  match op with
  | .put d =>
    let r := writeMem b0 key l d
    (r.1, if r.2 then 0 else 6, [])
  | .get n =>
    let r := readMem b0 key l n
    match r.2 with
    | none => (r.1, 0, rdKeys r.1 key n)
    | some e => (memFault r.1 e, 6, [])
  | .signal inc => answerOf false (updateMem b0 key l 8 (addWord inc))
  | .take => answerOf true (updateMem b0 key l 64 fun _ => List.replicate 64 0)
  | .radd kind fmt k n d =>
    let r := updateMem b0 key l (n * raddDest kind) id
    answerOf false (if r.2.isSome then raddRun kind fmt k d c key l n 0 r.1 else r.1, r.2)

/-! ### The requester -/

/-- What an operation still does with its data, by its number. -/
def finOf (i : UnitImg) (id : Nat) : OpEnd :=
  match i.ops.find? fun o => o.id = id with
  | some o => o.fin
  | none => .plain

/-- The operation belongs to a collective request that has ended. -/
def endedOf (i : UnitImg) (id : Nat) : Bool := i.ops.any fun o => o.id == id && o.ended

/-- An open request ends with a status: its tag is freed, or quarantined after TIMEOUT and ABANDONED (R297); a port that
waited for a tag goes on (R192). -/
def endReq (b : Block) (t st : Nat) (data : List Byte) : Block :=
  match tlook b.fab.reqs t with
  | none => b
  | some q =>
    let u := unitOf q.unit
    let f := { b.fab with
      reqs := tdel b.fab.reqs t,
      quarantine := if st = 0x10 ∨ st = 0x12 then tins b.fab.quarantine t q.unit else b.fab.quarantine }
    let i := img b q.ctx u
    let b1 := setImg { b with fab := f } q.ctx u
      { i with ops := updOp i.ops q.op fun x => { x with outstanding := x.outstanding - 1 } }
    pumpAll (pump (endPiece b1 q.ctx u (finOf i q.op) (endedOf i q.op) q.req.addr q.fill q.req.op st data) q.ctx u)

/-- End every open request that `p` names with ABANDONED (R322, R324, R476, R488). -/
def abandon (b : Block) (p : OpenReq → Bool) : Block :=
  ((b.fab.reqs.filter fun e => p e.2).map Prod.fst).foldl (fun x t => endReq x t 0x12 []) b

/-- End the open requests of a context that is destroyed or reset, and let no port send in their place. -/
def abandonCtx (b : Block) (c : Nat) : Block :=
  let b1 := abandon { b with fab := { b.fab with portsHeld := true } } fun q => q.ctx == c
  { b1 with fab := { b1.fab with portsHeld := b.fab.portsHeld } }

/-- The fenced state (R324): every context halts, every open request is abandoned, the host hears of it.
[DEDUCED, log 56] -/
def enterFenced (b : Block) (src : BitVec 15) (epoch : U32) : Block :=
  let b1 := { b with
    fab := { b.fab with fenced := true }
    house := { b.house with rekeyed := 0, admitted := false } }
  let b2 := abandon b1 fun _ => true
  let b3 := (b2.ctxs.map Prod.fst).foldl (fun x c => haltCtx x c .haltedFault) b2
  sendEvent b3 { kind := 3, ctx := 0xFF, body := [src.setWidth 64, epoch.setWidth 64] }

/-- A response reaches its requester (R295, R297, R322, R324); firmware tracks no house message, so a response to one ends
here. [DEDUCED, log 49] -/
def responseArrive (b : Block) (r : Response) : Block :=
  let late := { b with fab := { b.fab with late := satAdd b.fab.late 1 } }
  match tlook b.fab.reqs r.tag.toNat with
  | none => if jobOf r.epoch = 0 then b else late
  | some q =>
    if r.epoch = q.req.epoch ∧ r.epoch = (ctxOf b q.ctx).epoch then
      let b1 := endReq b r.tag.toNat r.status r.data
      if r.status = 1 then enterFenced b1 r.src r.epoch else b1
    else late

/-- The response leaves: to the module itself at once, else by a link; without a route it is discarded (R296, R319). -/
def respond (b : Block) (r : Request) (st : Nat) (data : List Byte) : Block :=
  let p : Response :=
    { dst := r.src, src := b.geo.own, tag := r.tag, epoch := r.epoch, status := st, data := data }
  if r.src = b.geo.own then responseArrive b p
  else match launch b (responseFlit p) none with
    | some x => x
    | none => { b with fab := { b.fab with noroute := satAdd b.fab.noroute 1 } }

/-- The target takes a request (R293). -/
def targetTake (b : Block) (r : Request) : Block :=
  match judge b r with
  | .refuse st => respond { b with fab := countRefused b.fab st } r st []
  | .hold => { b with fab := { b.fab with held := b.fab.held ++ [r] } }
  | .perform c key =>
    let x := performReq b c key r.addr r.op
    respond x.1 r x.2.1 x.2.2

/-- The request is one this module may take: it names this module, and one of its own is open and not already held. -/
def arrives (b : Block) (r : Request) : Bool :=
  faModule r.addr == b.geo.own &&
    (r.src != b.geo.own ||
      ((match tlook b.fab.reqs r.tag.toNat with | some q => q.req == r | none => false) && !b.fab.held.contains r))

/-- The held requests of the context that now runs are performed (R26). [DEDUCED, log 46] -/
def releaseHeld (b : Block) : Block :=
  let mine := b.fab.held.filter fun r => ctxOfJob b (jobOf r.epoch) == b.running
  mine.foldl targetTake { b with fab := { b.fab with held := b.fab.held.filter fun r => !mine.contains r } }

end Sys2Proof.Machine
end

