-- ==== Sys2Proof/Machine/HouseNet.lean ====
section
/-!
DEFINITION. House messages: their layout and how firmware sends them (R351, R353, R356).
-/
namespace Sys2Proof.Machine

/-- The sixty-four bytes of a house message (R353). -/
def hmBytes (m : HouseMsg) : List Byte :=
  leBytes 1 m.kind ++ leBytes 1 0 ++ leBytes 2 m.house ++ leBytes 4 m.term.toNat ++ leBytes 4 m.epoch.toNat ++
  leBytes 2 m.subject.toNat ++ leBytes 2 m.seq.toNat ++ leBytes 8 m.live.toNat ++ leBytes 8 m.dead.toNat ++
  (List.range 32).map fun j => m.body.getD j 0

def readHm (x : List Byte) : HouseMsg :=
  let n (o w : Nat) : Nat := leNat ((x.drop o).take w)
  { kind := n 0 1, house := n 2 2, term := BitVec.ofNat 32 (n 4 4), epoch := BitVec.ofNat 32 (n 8 4),
    subject := BitVec.ofNat 15 (n 12 2), seq := BitVec.ofNat 16 (n 14 2), live := BitVec.ofNat 64 (n 16 8),
    dead := BitVec.ofNat 64 (n 24 8), body := (x.drop 32).take 32 }

/-- Local addresses of the house page. -/
def housePage : Nat := 0xFFFA00000

/-- Where the house page is stored: in stack 0, or 2 MiB below the staging area of the lowest present stack. -/
def houseKey (b : Block) (l : Nat) : Nat :=
  match (List.range 12).find? fun k => b.geo.stackMask.getLsbD k with
  | some k => if k = 0 then l else l - housePage + ((k + 1) * 2 ^ 36 - 0x600000)
  | none => l

def slotAddr (m : Nat) : Nat := housePage + 64 * m

/-- A message stored in its sender's slot. -/
def putSlot (b : Block) (m : Nat) (x : List Byte) : Block × Bool :=
  writeMem b (houseKey b (slotAddr m)) (houseKey b (slotAddr m)) x

/-! ### Members -/

def houseCount (b : Block) : Nat := (b.torus.places.length + b.torus.houseSize - 1) / b.torus.houseSize

/-- The defined keeper of a house (R351). -/
def definedKeeper (b : Block) (h : Nat) : Option Nat :=
  b.torus.places.getD (h * b.torus.houseSize + b.torus.keepers.getD h 0) none

/-- The module that holds the keeper role of a house, as this module knows it: the keeper it follows in its own house,
elsewhere the keeper of the highest term seen, or the defined keeper (R356). [DEDUCED, log 61] -/
def keeperOf (b : Block) (h : Nat) : Option Nat :=
  if h = (houseIndex b).1 then some b.geo.keeper.toNat
  else match tlook b.house.seen h with
    | some e => some e.2
    | none => definedKeeper b h

/-- Keepers of the job, by house, the first one included. -/
def keepers (b : Block) : List Nat := (List.range (houseCount b)).filterMap (keeperOf b)

/-! ### Sending -/

/-- A house PUT: its epoch has job number 0, its address is the sender's slot on the destination. Firmware repeats its
messages and tracks no tag for them: tag 0. [DEDUCED, log 49] -/
def houseRequest (b : Block) (dst : Nat) (m : HouseMsg) : Request :=
  { src := b.geo.own, tag := 0, epoch := 0,
    addr := BitVec.ofNat 64 (dst * 2 ^ 49 + slotAddr b.geo.own.toNat), op := .put (hmBytes m) }

/-- Send a house message. A fenced module sends to its keeper only (R324); one to the own module goes to its slot.
[DEDUCED, log 49] -/
def sendHouse (b : Block) (dst : Nat) (m : HouseMsg) : Block :=
  if dst = b.geo.own.toNat then (putSlot b dst (hmBytes m)).1
  else if b.fab.fenced && dst != b.geo.keeper.toNat then b
  else match launch b (requestFlit (houseRequest b dst m)) none with
    | some x => x
    | none => { b with fab := { b.fab with noroute := satAdd b.fab.noroute 1 } }

/-- Send each module the message that restates the state to it. -/
def sendState (b : Block) (kind : Nat) (dsts : List Nat) : Block :=
  (dsts.filter (· != b.geo.own.toNat)).foldl (fun x d => sendHouse x d (stateMsg x kind d)) b

def sendFragment (b : Block) (dst : Nat) : Block :=
  match nextFragment b dst with
  | some m => sendHouse b dst m
  | none => b

/-- Queue bytes for a module as RELAY (0x0A) or SIG (0x0B) fragments; the first leaves at once where none is under way. -/
def queueFragments (b : Block) (kind dst : Nat) (x : List Byte) : Block :=
  let b1 := enqueue b kind dst x
  if (nextFragment b dst).isNone then sendFragment b1 dst else b1

/-- A message of a module acknowledges its oldest unacknowledged fragment: the next one leaves. -/
def ackFragments (b : Block) (m : Nat) (seq : U16) : Block :=
  match nextFragment b m with
  | some f =>
    if f.seq = seq then
      let b1 := { b with house := { b.house with outbox := b.house.outbox.erase (m, f) } }
      sendFragment b1 m
    else b
  | none => b

end Sys2Proof.Machine
end

