-- ==== Sys2Proof/Machine/Transport.lean ====
section
/-!
DEFINITION. The host transport: frames of a session, their keys, and the streams of the bulk channel (R421, R430, R431,
R433, R462).
-/
namespace Sys2Proof.Machine

/-! ### Keys (R462) -/

/-- [DEDUCED, log 50] -/
def commandKey (z : List Byte) : List Byte := kdf z (ascii "CMD")
def confirmKey (z : List Byte) : List Byte := kdf z (ascii "CONF")
def contextKey (z : List Byte) (label : String) (c : Nat) : List Byte := kdf z (ascii label ++ leBytes 1 c)

/-! ### Frames -/

/-- An ACK_ONLY frame: HT.SEQ 0, no sequence number consumed. -/
def ackFrame (z : List Byte) (session ch ack : Nat) : List Byte :=
  let h := transportHeader ch 3 0 session 0 ack
  h ++ Config.gcmSeal (frameKey z true true ch) (frameSalt z true true ch ++ leBytes 8 ack) h []

/-- Hand a frame to the port, or to the keeper's relay where the port is not cabled (R360, R435). -/
def emitFrame (b : Block) (session ch : Nat) (x : List Byte) : Block :=
  if cabled b then
    let n := bump16 b.hp.tx b.hp.txLow
    { b with hp := { b.hp with tx := n.1, txLow := n.2 }, egress := b.egress ++ [.frame session ch (hostAddr b session) x] }
  else queueFragments b 0x0A b.geo.keeper.toNat x

def setSession (b : Block) (id : Nat) (s : Session) : Block := { b with sessions := tins b.sessions id s }
def chanOf (s : Session) (ch : Nat) : Chan := s.chan.getD ch {}
def setChan (s : Session) (ch : Nat) (c : Chan) : Session := { s with chan := s.chan.set ch c }

/-- Send the payloads waiting on a channel while fewer than 4 096 frames are unacknowledged (R430). -/
def pumpChan : Nat → Block → Nat → Nat → Block
  | 0, b, _, _ => b
  | n + 1, b, id, ch =>
    match tlook b.sessions id with
    | none => b
    | some s =>
      let c := chanOf s ch
      match c.backlog with
      | [] => b
      | p :: rest =>
        if c.unacked.length ≥ 4096 then b
        else
          let x := sealedFrame s.z id ch c.txNext c.rxNext p
          let c1 := { c with
            txNext := c.txNext + 1, unacked := c.unacked ++ [{ seq := c.txNext, ack := c.rxNext, payload := p }],
            backlog := rest, ackDue := 0 }
          pumpChan n (emitFrame (setSession b id (setChan s ch c1)) id ch x) id ch

/-- Queue a payload on a channel of an open session and send what may go. -/
def sendOn (b : Block) (id ch : Nat) (p : List Byte) : Block :=
  match tlook b.sessions id with
  | none => b
  | some s =>
    let c := chanOf s ch
    pumpChan (c.backlog.length + 1) (setSession b id (setChan s ch { c with backlog := c.backlog ++ [p] })) id ch

/-! ### The bulk channel -/

/-- The bulk header (R431). -/
def bulkHeader (kind ctx flags len addr arg inc : Nat) : List Byte :=
  leBytes 1 kind ++ leBytes 1 ctx ++ leBytes 2 flags ++ leBytes 4 len ++ leBytes 8 addr ++ leBytes 8 arg ++ leBytes 8 inc

/-- Fragments of a unit: at most 8 192 bytes each, ascending, the last one flagged (R433); a unit of no bytes is one
empty fragment. -/
def bulkFragments (kind ctx arg base : Nat) (x : List Byte) : List (List Byte) :=
  let n := max 1 ((x.length + 8191) / 8192)
  (List.range n).map fun j =>
    let d := (x.drop (8192 * j)).take 8192
    bulkHeader kind ctx (if j + 1 = n then 1 else 0) d.length (base + 8192 * j) arg 0 ++ d

/-- Stream a unit to a session. -/
def streamUnit (b : Block) (id kind ctx arg base : Nat) (x : List Byte) : Block :=
  (bulkFragments kind ctx arg base x).foldl (fun z p => sendOn z id 2 p) b

/-! ### The ledger ring (R400) -/

/-- Room in a context's ring of 1 MiB for `n` more bytes. -/
def ringRoom (x : Ctx) (n : Nat) : Bool :=
  decide ((x.ring.map fun u => u.bytes.length).foldl (· + ·) 0 + n ≤ 2 ^ 20)

/-- Put a unit into the ring and stream it on the context's session. -/
def ringPut (b : Block) (c kind seq : Nat) (x : List Byte) : Block :=
  let k := ctxOf b c
  let b1 := setCtx b c { k with ring := k.ring ++ [{ seq := seq, kind := kind, bytes := x }] }
  streamUnit b1 k.session 0x05 c seq 0 x

/-- Free the first ring unit of a sequence number, its last fragment being acknowledged. -/
def ringFree (b : Block) (c seq : Nat) : Block :=
  match tlook b.ctxs c with
  | none => b
  | some k =>
    match k.ring.findIdx? (·.seq == seq) with
    | some i => setCtx b c { k with ring := k.ring.eraseIdx i }
    | none => b

/-- Send every unit a context's ring holds on a session that takes its streams (R423, R425). -/
def restream (b : Block) (c : Nat) : Block :=
  (ctxOf b c).ring.foldl (fun z u => streamUnit z (ctxOf b c).session 0x05 c u.seq 0 u.bytes) b

end Sys2Proof.Machine
end

