-- ==== Sys2Proof/Machine/Vyano.lean ====
section
/-!
DEFINITION. The Vyano root's services: signature indices (R457, R458), random bits, certificates and attestation reports
(R456, R460), and the entropy source's failure (R453).
-/
namespace Sys2Proof.Machine

/-- FAULT_L is asserted (R474). -/
def setFaultL (b : Block) : Block := { b with pw := { b.pw with faultL := true } }

/-- The root generates keys: no health test has failed (R453). -/
def canKey (b : Block) : Bool := !b.vy.rngFault

/-- The root signs: its indices are not used up (R458). -/
def canSign (b : Block) : Bool := !b.vy.exhausted && decide (b.vy.next < 2 ^ 40)

/-- Before an index is used the ceiling is raised past it (R457). [DESIGN CHOICE, log 108] -/
def raiseCeil (v : Vyano) : Vyano :=
  if v.ceil ≤ v.next then { v with ceilNv := v.ceilNv.write (v.next - v.next % 64 + 64), nvWrites := satAdd v.nvWrites 1 } else v

/-- Sign a message with the next index (R457); none when the indices are used up. -/
def sign (b : Block) (msg : List Byte) : Option (List Byte × Block) :=
  if canSign b then
    let v := raiseCeil b.vy
    let out := decide (v.next + 1 = 2 ^ 40)
    let b1 := { b with vy := { v with next := v.next + 1, signs := satAdd v.signs 1, exhausted := out } }
    some (Config.xmssSign v.next msg, if out then setFaultL b1 else b1)
  else none

/-- Random bytes of the root's generator. [DESIGN CHOICE, log 11] -/
def draw (b : Block) (n : Nat) : List Byte × Block :=
  (Config.random b.vy.drawn n, { b with vy := { b.vy with drawn := b.vy.drawn + 1 } })

/-- One write of a persisted item to the non-volatile cells (R458). [DESIGN CHOICE, log 108] -/
def nvWrite (b : Block) (f : Vyano → Vyano) : Block :=
  { b with vy := f { b.vy with nvWrites := satAdd b.vy.nvWrites 1 } }

def agreeFailed (b : Block) : Block := { b with vy := { b.vy with agreeFail := satAdd b.vy.agreeFail 1 } }

/-! ### Attestation (R460) -/

/-- [DEDUCED, log 78] -/
def confMask (b : Block) : Nat := sumOf ((b.ctxs.filter fun e => e.2.confidential).map fun e => 2 ^ e.1)

/-- The 256-byte body of a report bound to 64 bytes, for an epoch of the request or 0. -/
def reportBody (b : Block) (bind : List Byte) (epoch : Nat) : List Byte :=
  let p (n : Nat) (x : List Byte) : List Byte := (List.range n).map fun j => x.getD j 0
  leBytes 4 0x53545441 ++ leBytes 2 1 ++ leBytes 2 b.geo.own.toNat ++ leBytes 8 b.vy.next ++ p 64 b.vy.fwDigest ++
  leBytes 2 b.vy.svn.toNat ++ leBytes 2 b.vy.svnMin.toNat ++ leBytes 4 b.chip.policy.toNat ++ leBytes 4 b.chip.locks.toNat ++
  leBytes 2 (confMask b) ++
  leBytes 1 (b.chip.debugOn.toNat + 2 * b.fab.fenced.toNat + 4 * (b.vy.ops.all Option.isNone).toNat) ++ leBytes 1 0 ++
  leBytes 4 epoch ++ leBytes 28 0 ++ p 64 bind ++ leBytes 64 0

/-- A signed report; none when the root cannot sign. -/
def report (b : Block) (bind : List Byte) (epoch : Nat) : Option (List Byte × Block) :=
  let body := reportBody b bind epoch
  (sign b body).map fun r => (body ++ r.1, r.2)

/-! ### Verifying others -/

/-- A slot is valid, unrevoked and has a role (R455). -/
def slotOk (b : Block) (slot : Nat) (device : Bool) : Bool :=
  decide (slot < 4) && b.vy.slotValid.getLsbD slot && !b.vy.slotRevoked.getLsbD slot &&
    (if device then b.vy.slotDev else b.vy.slotFw).getLsbD slot

/-- A certificate verifies against a device-role slot (R456). -/
def certOk (b : Block) (cert : List Byte) : Bool :=
  let slot := (cert.getD 0x20 0).toNat
  slotOk b slot true && Config.xmssVerify (b.vy.slotKeys.getD slot []) (cert.take 256) (cert.drop 256)

def certKey (cert : List Byte) : List Byte := (cert.drop 0x28).take 68

/-- A peer's report verifies against its certificate and is bound to the exchange; its version is high enough; it is
not fenced outside a readmission (R465). -/
def peerReportOk (b : Block) (cert rep bind : List Byte) (readmit : Bool) : Bool :=
  Config.xmssVerify (certKey cert) (rep.take 256) (rep.drop 256) && ((rep.drop 0x80).take 64 == bind) &&
    decide (b.vy.svnMin.toNat ≤ leNat ((rep.drop 0x50).take 2)) && (readmit || !(rep.getD 0x5E 0).getLsbD 1)

/-- Session secret of an agreement (R462). [DEDUCED, log 50] -/
def sessionSecret (ss transcript : List Byte) : List Byte :=
  Config.kmac ss (Config.shake transcript) 512 (ascii "ZTM-T32 SESSION")

/-- ENTROPY_HEALTH_FAILURE (R453): from now on the root generates no key. -/
def entropyFailure (b : Block) : Block := setFaultL { b with vy := { b.vy with rngFault := true } }

end Sys2Proof.Machine
end

