-- ==== Sys2Proof/Machine/Firmware.lean ====
section
/-!
DEFINITION. Firmware images and bore pattern packages: verification (R455, R459, R499), installation, and what the boot
ROM's acceptance of an image sets.
-/
namespace Sys2Proof.Machine

/-! ### Images (R459) -/

def fwSigBytes : Nat := 5605

/-- The slot's signature over a 256-byte header, and the digest of a body; the reason code of what fails first. -/
def signedRefusal (b : Block) (slot : Nat) (head sig body digest : List Byte) : Option Nat :=
  if !slotOk b slot false then some 0x21
  else if !Config.xmssVerify (b.vy.slotKeys.getD slot []) head sig then some 0x22
  else if Config.shake body ≠ digest then some 0x23
  else none

/-- The reason that refuses an image; the boot ROM's test of R459. [DESIGN CHOICE, log 14] -/
def imageRefusal (b : Block) (x : List Byte) : Option Nat :=
  match Config.fwHeader (x.take 256) with
  | none => some 0x25
  | some h =>
    match signedRefusal b h.slot (x.take 256) ((x.drop 256).take fwSigBytes) ((x.drop (256 + fwSigBytes)).take h.size)
        h.digest with
    | some r => some r
    | none => if h.svn.toNat < b.vy.svnMin.toNat then some 0x24 else none

/-- The boot ROM accepts an image: the minimum rises, revocations are blown but for the image's own slot, the running
version and digest are the image's. -/
def acceptImage (b : Block) (x : List Byte) : Block :=
  match Config.fwHeader (x.take 256) with
  | none => b
  | some h =>
    let revoked := b.vy.slotRevoked ||| (h.revoke &&& ~~~ (1#4 <<< h.slot))
    let b1 := if h.raise && b.vy.svnMin != h.svn then nvWrite b fun v => { v with svnMinNv := v.svnMinNv.write h.svn } else b
    { b1 with
      vy := { b1.vy with svn := h.svn, slotRevoked := revoked, fwDigest := h.digest }
      geo := { b1.geo with fwDigest := h.digest.take 16, generation := b1.geo.generation + 2 } }

/-! ### Packages (R497, R499) -/

/-- The load window holds a package. -/
def isPackage (x : List Byte) : Bool := leNat (x.take 4) == 0x45524F42

/-- The reason that refuses a package. -/
def packageRefusal (b : Block) (x : List Byte) : Option Nat :=
  let f (o n : Nat) : Nat := leNat ((x.drop o).take n)
  let id := f 6 1
  match signedRefusal b (f 7 1) (x.take 256) ((x.drop 256).take fwSigBytes) ((x.take (f 0x10 8)).drop 0x16E5)
      ((x.drop 0x18).take 64) with
  | some r => some r
  | none => match b.ft.pkgs.find? fun p => p.1 == id with
    | some p => if f 8 2 < p.2.1 then some 0x24 else none
    | none => if 4 ≤ b.ft.pkgs.length then some 0x20 else none

/-- Install a package: it takes the place of one with its number. -/
def installPackage (b : Block) (x : List Byte) : Block :=
  let id := leNat ((x.drop 6).take 1)
  let p := (id, leNat ((x.drop 8).take 2), x)
  let l := if b.ft.pkgs.any fun q => q.1 == id then b.ft.pkgs.map (fun q => if q.1 = id then p else q)
    else b.ft.pkgs ++ [p]
  { b with ft := { b.ft with pkgs := l } }

/-- What FIRMWARE_LOAD does with the load window's content: the reason of a refusal, or the block with it installed. -/
def installWindow (b : Block) (x : List Byte) : Nat ⊕ Block :=
  if isPackage x then
    match packageRefusal b x with
    | some r => .inl r
    | none => .inr (installPackage b x)
  else match imageRefusal b x with
    | some r => .inl r
    | none => .inr { b with pw := { b.pw with flash := x } }

end Sys2Proof.Machine
end

