-- ==== Sys2Proof/Machine/Binary64.lean ====
section
/-!
DEFINITION. The binary64 class (R144, R145, R154).
-/
namespace Sys2Proof.Machine

def fval (i : UnitImg) (r : BitVec 5) : FVal := fdecode .f64 (freg i r).toNat

/-- A binary64 operation on up to three operands, rounded by the mode of [31:30] with its events. -/
def f64Eff (op : Nat) (legal : Ops → Bool) (f : FVal → FVal → FVal → FRes) (u : UnitId) (o : Ops) (b : Block) : Block :=
  issue b u (mkWord 4 op o) (legal o) fun c i =>
    let r := finish .f64 (modeOf (bits o 30 2)) (f (fval i (fa o)) (fval i (fb o)) (fval i (fc o)))
    retire b c u (countEv (setF i (fd o) (BitVec.ofNat 64 r.1)) r.2)

def faddEff := f64Eff 0x00 legalF2 fun x y _ => fAdd x y
def fsubEff := f64Eff 0x01 legalF2 fun x y _ => fSub x y
def fmulEff := f64Eff 0x02 legalF2 fun x y _ => fMul x y
def fdivEff := f64Eff 0x03 legalF2 fun x y _ => fDiv x y
def fsqrtEff := f64Eff 0x04 legalFsqrt fun x _ _ => fSqrt x
def fmaEff := f64Eff 0x05 legalFma fun x y z => fFma x y z
def fminEff := f64Eff 0x06 legalFmm fun x y _ => ⟨fMin x y, false, false⟩
def fmaxEff := f64Eff 0x07 legalFmm fun x y _ => ⟨fMax x y, false, false⟩

/-- A finite value rounded to an integer by nearest-even or toward zero. -/
def roundInt (mode : RMode) (s : Bool) (m : Nat) (e : Int) : Int :=
  let mag :=
    if 0 ≤ e then m <<< e.toNat
    else
      let d := (-e).toNat
      let q := m >>> d
      let r := m % 2 ^ d
      let h := 2 ^ (d - 1)
      if mode = .nearest && (decide (r > h) || (decide (r = h) && q % 2 == 1)) then q + 1 else q
  if s then -(mag : Int) else mag

/-- Clamp into a range (R154). -/
def clampInt (lo hi x : Int) : Int × Nat :=
  if x < lo then (lo, 1) else if hi < x then (hi, 1) else (x, 0)

/-- FCVT forms 0 and 1: NaN gives 0 and, like every value out of range, counts one clamp. -/
def fcvtInt (mode : RMode) (lo hi : Int) : FVal → Int × Nat
  | .nan => (0, 1)
  | .inf s => (if s then lo else hi, 1)
  | .fin s m e => clampInt lo hi (roundInt mode s m e)

/-- The format of field [25:22] of FCVT. -/
def fcvtFmt (o : Ops) : Fmt := (fmtOfCode (bits o 22 4)).getD .f32

def fcvtApply (i : UnitImg) (o : Ops) : UnitImg :=
  let mode := modeOf (bits o 30 2)
  let x := fval i (fa o)
  let n := sreg i (fa o)
  match bits o 26 4 with
  | 0 =>
    let r := fcvtInt mode (-2 ^ 63) (2 ^ 63 - 1) x
    countEv (setS i (fd o) (BitVec.ofInt 64 r.1)) (evClamps r.2)
  | 1 =>
    let r := fcvtInt mode 0 (2 ^ 64 - 1) x
    countEv (setS i (fd o) (BitVec.ofInt 64 r.1)) (evClamps r.2)
  | 2 =>
    setF i (fd o) (BitVec.ofNat 64
      (convertTo .f64 mode false 0 0 (.fin (decide (n.toInt < 0)) n.toInt.natAbs 0) false).1)
  | 3 => setF i (fd o) (BitVec.ofNat 64 (convertTo .f64 mode false 0 0 (.fin false n.toNat 0) false).1)
  | 4 =>
    let r := convertTo (fcvtFmt o) mode (bit o 21) 0 0 x false
    countEv (setS i (fd o) (BitVec.ofNat 64 r.1)) (evOf r.2 false)
  | _ => setF i (fd o) (BitVec.ofNat 64 (convertTo .f64 .nearest false 0 0 (fdecode (fcvtFmt o) n.toNat) false).1)

def fcvtEff (u : UnitId) (o : Ops) (b : Block) : Block :=
  issue b u (mkWord 4 0x08 o) (legalFcvt o) fun c i => retire b c u (fcvtApply i o)

end Sys2Proof.Machine
end

