-- ==== Sys2Proof/Machine/DerrickData.lean ====
section
/-!
DEFINITION. The Derrick's fixed-point arithmetic (R236 to R240), structures (R230 to R235), batches and delta records
(R241 to R246).
-/
namespace Sys2Proof.Machine

/-! ### Fixed point -/

def qMax : Int := 2 ^ 63 - 1

/-- Nearest-even division by 2^d. -/
def rneShift (p : Int) (d : Nat) : Int :=
  let q := p / 2 ^ d
  let r := p % 2 ^ d
  if 2 * r > 2 ^ d then q + 1 else if 2 * r = 2 ^ d then (if q % 2 = 0 then q else q + 1) else q

/-- fx_round of R239: p × 2^w into fraction width n, with whether it saturated. -/
def fxRound (p w : Int) (n : Nat) : Int × Bool :=
  let d := -(n : Int) - w
  let y := if d ≤ 0 then p * 2 ^ (-d).toNat else rneShift p d.toNat
  if y > qMax then (qMax, true) else if y < -qMax then (-qMax, true) else (y, false)

/-- A binary64 value enters as a Q word (R240): the word, saturated, NaN. -/
def qOfBits (n : Nat) (x : Nat) : Int × Bool × Bool :=
  match fdecode .f64 x with
  | .nan => (0, false, true)
  | .inf s => (if s then -qMax else qMax, true, false)
  | .fin s m e => let r := fxRound (if s then -(m : Int) else m) e n; (r.1, r.2, false)

/-- A Q word leaves as binary64 (R240). -/
def bitsOfQ (n : Nat) (x : Int) : Nat :=
  (convertTo .f64 .nearest false 0 0 (.fin (decide (x < 0)) x.natAbs (-(n : Int))) false).1

/-- Nearest-even quotient of integers. -/
def rneDiv (x y : Int) : Int :=
  let a := y.natAbs
  let n := if y < 0 then -x else x
  let q := n / a
  let r := n % a
  if 2 * r > a then q + 1 else if 2 * r = a then (if q % 2 = 0 then q else q + 1) else q

/-- x of width nx ÷ y of width ny, into width n, correctly rounded (R239). -/
def fxQuot (x : Int) (nx : Nat) (y : Int) (ny n : Nat) : Int × Bool :=
  fxRound (rneDiv (x * 2 ^ (n + ny)) (y * 2 ^ nx)) (-(n : Int)) n

/-- 1 ÷ d for a class-18 value, into class 15 (R237, R239). -/
def qRecip (n18 n15 : Nat) (d : Int) : Int × Bool := fxQuot 1 0 d n18 n15

/-- The square root of an exact sum of width 2n, correctly rounded into width n: it is never a tie (R239). -/
def fxSqrt (p : Nat) (n : Nat) : Int × Bool :=
  let r := isqrt p
  fxRound (if p - r * r > r then r + 1 else r) (-(n : Int)) n

/-- A value of a kernel as a Q word: the code −2^63 is never produced (R236). -/
def qBound (x : Int) : Int := max (-qMax) (min qMax x)

/-- n Q words of a kernel's list. -/
def qWords (n : Nat) (l : List Int) : List Int := (List.range n).map fun j => qBound (l.getD j 0)

/-! ### Structures -/

def le16 (x : List Byte) (o : Nat) : Nat := leNat ((x.drop o).take 2)
def le32 (x : List Byte) (o : Nat) : Nat := leNat ((x.drop o).take 4)
def le64 (x : List Byte) (o : Nat) : Nat := leNat ((x.drop o).take 8)

/-- The fraction width of range class k in an image's range table (R238). -/
def imageFrac (image : List Byte) (k : Nat) : Nat := min 62 (image.getD (0x40 + 16 * k) 0).toNat

def fracOf (s : DrkStruct) (k : Nat) : Nat := imageFrac s.image k

/-- The range floor of a floor class (R238). -/
def floorOf (s : DrkStruct) (k : Nat) : Int := max 1 (BitVec.ofNat 64 (le64 s.image (0x48 + 16 * k))).toInt

/-- Clamps of a range table: FRAC above 62, and floors below 1 of the floor classes (R238). -/
def tableClamps (image : List Byte) : Nat :=
  ((List.range 28).filter fun k => (image.getD (0x40 + 16 * k) 0).toNat > 62).length +
    ([12, 14, 18].filter fun k => (BitVec.ofNat 64 (le64 image (0x48 + 16 * k))).toInt < 1).length

def bodyOff (n : Nat) : Nat := 0x240 + 192 * n
def slotOff (bodies c : Nat) : Nat := 0x240 + 192 * bodies + 96 * c
def jointOf (image : List Byte) (n : Nat) : Nat := (image.getD (bodyOff n + 2) 0).toNat
def slotKind (image : List Byte) (bodies c : Nat) : Nat := (image.getD (slotOff bodies c) 0).toNat
def jointQ (j : Nat) : Nat := if j = 0 then 0 else if j = 3 then 4 else if j = 4 then 7 else 1
def jointV (j : Nat) : Nat := if j = 0 then 0 else if j = 3 then 3 else if j = 4 then 6 else 1
/-- Class and offset of every binary64 value of an image (R230 to R232). [DEDUCED, log 38] -/
def imageVals (image : List Byte) (bodies slots : Nat) : List (Nat × Nat) :=
  let run (cls o n : Nat) : List (Nat × Nat) := (List.range n).map fun j => (cls, o + 8 * j)
  run 24 0x18 2 ++ run 23 0x28 3 ++
    ((List.range bodies).flatMap fun n =>
      let o := bodyOff n
      run 4 (o + 0x08) 3 ++ run 5 (o + 0x20) 7 ++ run 9 (o + 0x58) 4 ++ run 10 (o + 0x78) 6) ++
    (List.range slots).flatMap fun c =>
      let o := slotOff bodies c
      let k := slotKind image bodies c
      run 4 (o + 0x08) 6 ++ (if k = 2 then run 4 (o + 0x38) 1 else if k = 4 then run 21 (o + 0x38) 1 else []) ++
        run 20 (o + 0x40) 1 ++ if 3 ≤ k then run 16 (o + 0x48) 3 else []

/-- What converting an image meets (R234, R240): a NaN, the class of the first saturation, how many saturate.
[DEDUCED, log 38] -/
def imageMet (image : List Byte) (bodies slots : Nat) : Bool × Option Nat × Nat :=
  let r := (imageVals image bodies slots).map fun x => (x.1, qOfBits (imageFrac image x.1) (le64 image x.2))
  let sats := r.filter fun x => x.2.2.1
  (r.any fun x => x.2.2.2, sats.head?.map Prod.fst, sats.length)

/-- Rows of a slot kind (R232). -/
def slotRows (k : Nat) : Nat := if k = 0 ∨ k = 4 then 3 else if k = 1 then 6 else 1


/-- A range of local addresses lies in stack k within the context's memory. -/
def inStack (b : Block) (c k a n : Nat) : Bool :=
  decide (k * 2 ^ 36 ≤ a) && decide (a + n ≤ (k + 1) * 2 ^ 36) &&
    (List.range ((a + n + 0x1FFFFF) / 0x200000 - pageOf a)).all fun p => tlook b.pages (pageOf a + p) == some c

/-- A range by its fabric address: of this module, and in stack k. -/
def inStackAt (b : Block) (c k : Nat) (a : U64) (n : Nat) : Bool :=
  faModule a == b.geo.own && inStack b c k (faLocal a) n

/-- Every byte of a range by its fabric address is memory of the context on this module. -/
def inMemory (b : Block) (c : Nat) (a : U64) (n : Nat) : Bool :=
  faModule a == b.geo.own &&
    (List.range ((faLocal a + n + 0x1FFFFF) / 0x200000 - pageOf (faLocal a))).all fun p =>
      owns b c ((pageOf (faLocal a) + p) * 0x200000)

def ceil64 (n : Nat) : Nat := (n + 63) / 64 * 64

/-- Bytes of an output record (R235). -/
def outBytes (nq nv rows bodies : Nat) : Nat :=
  0x40 + 8 * nq + 8 * nv + 8 * nv + 8 * rows + 56 * bodies + 8 * (nq + 2 * nv + 10 * bodies)

/-- The load checks of R234 in their order; the derived structure when all pass. `image` holds the image whole where
`whole` says so, its header at least. [DEDUCED, log 40] -/
def loadStruct (c : Nat) (whole inside inUse : Bool) (image : List Byte) (area areaLen : Nat) : Nat ⊕ DrkStruct :=
  let bodies := le16 image 2
  let slots := le16 image 4
  if le16 image 0 ≠ 1 then .inl 1
  else if bodies < 1 ∨ 512 < bodies ∨ 128 < slots then .inl 2
  else if !whole then .inl 6
  else if (List.range bodies).any fun n =>
      let p := le16 image (bodyOff n)
      !(decide (p < n) || p == 0xFFFF) || decide (jointOf image n > 4) then .inl 3
  else
    let nq := sumOf ((List.range bodies).map fun n => jointQ (jointOf image n))
    let nv := sumOf ((List.range bodies).map fun n => jointV (jointOf image n))
    if nq > 3584 ∨ nv > 3072 then .inl 4
    else
      let okBody (o : Nat) : Bool := decide (le16 image o < bodies) || le16 image o == 0xFFFF
      let rows := sumOf ((List.range slots).map fun s => slotRows (slotKind image bodies s))
      if ((List.range slots).any fun s => decide (slotKind image bodies s > 4) ||
          !okBody (slotOff bodies s + 2) || !okBody (slotOff bodies s + 4)) || decide (rows > 512) then .inl 5
      else if !inside then .inl 6
      else if inUse then .inl 7
      else .inr { ctx := c, image := image, bodies := bodies, slots := slots, nq := nq, nv := nv, rows := rows,
                  area := area, areaLen := areaLen,
                  stride := ceil64 (outBytes nq nv rows bodies) + 64 * Config.drkStateUnits bodies nq nv rows,
                  nanIn := (imageMet image bodies slots).1, satClass := (imageMet image bodies slots).2.1 }

/-! ### Batches and records -/

structure DRec where
  kind : Nat
  env : Nat
  index : Nat
  count : Nat
  vals : List Nat
deriving DecidableEq, Repr

/-- A record that the batch does not hold whole: it has no kind, so that it cannot be applied (R246).
[DEDUCED, log 38] -/
def cutRec : DRec := { kind := 0, env := 0, index := 0, count := 0, vals := [] }

/-- Parse at most n records; one that the bytes do not hold whole is the last. -/
def parseRecs : Nat → List Byte → List DRec
  | 0, _ => []
  | n + 1, x =>
    let cnt := le16 x 6
    if x.length < 8 + 8 * cnt then [cutRec]
    else
      { kind := leNat (x.take 1), env := le16 x 2, index := le16 x 4, count := cnt,
        vals := (List.range cnt).map fun j => le64 x (8 + 8 * j) } :: parseRecs n (x.drop (8 + 8 * cnt))

/-- The records of a batch (R241). -/
def batchRecs (x : List Byte) : List DRec := parseRecs (min (le32 x 4) (x.length + 1)) (x.drop 16)

/-- The round records of a batch. -/
def batchSpecs (x : List Byte) : List (Nat × List Nat) :=
  ((batchRecs x).filter fun r => r.kind == 0x11 && r.count == 8).map fun r => (r.index, r.vals)

def slotKey (c n : Nat) : Nat := c * 16 + n
def envKey (c n : Nat) : Nat := c * 4096 + n

/-- Clamp a value to a range, with one clamp when it moves. -/
def clampN (lo hi x : Nat) : Nat × Nat := if x < lo then (lo, 1) else if hi < x then (hi, 1) else (x, 0)

/-- A round record's fields with their clamps (R244). An area inside stack k that holds no byte is a tape all the same, which
no entry fits (R258). -/
def roundOf (b : Block) (c k : Nat) (v : List Nat) : RoundRec × Nat :=
  let v0 := v.getD 0 0
  let it := clampN 1 256 (v0 / 2 ^ 8 % 512)
  let e := clampN 1 256 (v0 / 2 ^ 17 % 512)
  let first := v.getD 2 0 % 4096
  let ne := clampN 0 (4096 - first) (v.getD 3 0 % 8192)
  let tape := v0.testBit 3
  let lo := BitVec.ofNat 64 (v.getD 6 0)
  let hi := BitVec.ofNat 64 (v.getD 7 0)
  let area := inStackAt b c k lo (hi.toNat - lo.toNat)
  let ctr := alignTo 8 (BitVec.ofNat 64 (v.getD 4 0))
  ({ mode := v0 % 4, cut := v0.testBit 2, tape := tape && area, warm := v0.testBit 4, iters := it.1, batches := e.1,
     deadline := v0 / 2 ^ 32 % 2 ^ 32, h := BitVec.ofNat 64 (v.getD 1 0), first := first, nenv := ne.1,
     counter := ctr.1, inc := BitVec.ofNat 64 (v.getD 5 0), tapeBase := lo, tapeLimit := hi },
   it.2 + e.2 + ne.2 + ctr.2 + (tape && !area).toNat)

/-- Identity positions of a structure: zero, with identity quaternions (R243). -/
def initQ (s : DrkStruct) : List Int :=
  let one : Int := 2 ^ fracOf s 0
  (List.range s.bodies).flatMap fun n =>
    let j := jointOf s.image n
    if j = 3 then [one, 0, 0, 0] else if j = 4 then [0, 0, 0, one, 0, 0, 0] else List.replicate (jointQ j) 0

/-- What applying records accumulates: the Derrick, memory, clamps and saturations. -/
structure Applied where
  d : Drk
  b : Block
  clamps : Nat := 0
  sats : Nat := 0
  /-- an uncorrectable word was met on an image (R263) -/
  fault : Bool := false

/-- Binary64 values enter an environment in a class; what they meet is kept for its next solve (R240).
[DEDUCED, log 38] -/
def enterVals (e : DrkEnv) (cls n : Nat) (v : List Nat) : List Int × DrkEnv × Nat :=
  let r := v.map (qOfBits n)
  let sats := (r.filter fun x => x.2.1).length
  (r.map Prod.fst,
   { e with nanIn := e.nanIn || r.any fun x => x.2.2,
            satClass := if sats = 0 then e.satClass else e.satClass.or (some cls) }, sats)

/-- Replace l[i ...] by the values. -/
def patchAt (l : List Int) (i : Nat) (v : List Int) : List Int := l.take i ++ v ++ l.drop (i + v.length)

def skipRec (a : Applied) : Applied := { a with clamps := a.clamps + 1 }

def putEnv (a : Applied) (n : Nat) (r : DrkEnv × Nat) : Applied :=
  { a with d := { a.d with envs := tins a.d.envs (envKey r.1.ctx n) r.1 }, sats := a.sats + r.2 }

/-- The class of an output record entry whose adjoint seed is set. [DEDUCED, log 38] -/
def seedClass (s : DrkStruct) (pos : Nat) : Nat := if s.nq + 2 * s.nv ≤ pos ∧ pos < s.nq + 2 * s.nv + s.rows then 26 else 25

/-- The class of a body parameter field (R243). [DEDUCED, log 38] -/
def paramClass (f : Nat) : Nat := if f < 4 then 9 else 10

/-- A record on a resident environment of the context (R243). [DEDUCED, log 38] -/
def applyEnv (a : Applied) (s : DrkStruct) (e : DrkEnv) (r : DRec) : Applied :=
  let vec (cls len : Nat) (old : List Int) (set : DrkEnv → List Int → DrkEnv) : Applied :=
    if r.index + r.count ≤ len then
      let x := enterVals e cls (fracOf s cls) r.vals
      putEnv a r.env (set x.2.1 (patchAt old r.index x.1), x.2.2)
    else skipRec a
  match r.kind with
  | 0x02 => { a with d := { a.d with envs := tdel a.d.envs (envKey e.ctx r.env) } }
  | 0x03 => vec 0 s.nq e.q fun x v => { x with q := v }
  | 0x04 => vec 1 s.nv e.qd fun x v => { x with qd := v }
  | 0x05 => vec 3 s.nv e.tau fun x v => { x with tau := v }
  | 0x06 =>
    let k := slotKind s.image s.bodies r.index
    if r.index < s.slots ∧ 3 ≤ k ∧ (r.count = 10 ∨ r.count = 0) then
      if r.count = 0 then putEnv a r.env ({ e with active := e.active.set r.index false }, 0)
      else
        let x := enterVals e 4 (fracOf s 4) (r.vals.take 6)
        let y := enterVals x.2.1 16 (fracOf s 16) ((r.vals.drop 6).take 3)
        let z := enterVals y.2.1 21 (fracOf s 21) (r.vals.drop 9)
        putEnv a r.env ({ z.2.1 with active := e.active.set r.index true,
                                     contact := tins e.contact r.index (x.1 ++ y.1 ++ z.1) },
                        x.2.2 + y.2.2 + z.2.2)
    else skipRec a
  | 0x07 =>
    let f := r.index % 16
    if r.index / 16 < s.bodies ∧ f + r.count ≤ 10 then
      putEnv a r.env ((List.range r.count).foldl (fun (z : DrkEnv × Nat) j =>
        let cls := paramClass (f + j)
        let x := enterVals z.1 cls (fracOf s cls) [r.vals.getD j 0]
        ({ x.2.1 with params := tins x.2.1.params (r.index + j) (x.1.getD 0 0) }, z.2 + x.2.2)) (e, 0))
    else skipRec a
  | 0x08 => if r.index = 0 ∧ r.count = 3 then vec 23 3 e.grav fun x v => { x with grav := v } else skipRec a
  | 0x09 =>
    if r.index + r.count ≤ s.nq + 2 * s.nv + s.rows + 7 * s.bodies then
      putEnv a r.env ((List.range r.count).foldl (fun (z : DrkEnv × Nat) j =>
        let cls := seedClass s (r.index + j)
        let x := enterVals z.1 cls (fracOf s cls) [r.vals.getD j 0]
        ({ x.2.1 with seeds := tins x.2.1.seeds (r.index + j) (x.1.getD 0 0) }, z.2 + x.2.2)) (e, 0))
    else skipRec a
  | _ => skipRec a

/-- ENV_INIT (R243, R246). -/
def applyInit (a : Applied) (c : Nat) (r : DRec) : Applied :=
  match tlook a.d.structs (slotKey c r.index) with
  | none => skipRec a
  | some s =>
    if r.index < 16 ∧ r.count = 0 ∧ r.env < 4096 ∧ (r.env + 1) * s.stride ≤ s.areaLen then
      let e : DrkEnv :=
        { ctx := c, slot := r.index, q := initQ s, qd := List.replicate s.nv 0, tau := List.replicate s.nv 0,
          grav := (List.range 3).map fun j => (qOfBits (fracOf s 23) (le64 s.image (0x28 + 8 * j))).1
          active := (List.range s.slots).map fun j => s.image.getD (slotOff s.bodies j + 1) 0 == 1 }
      putEnv a r.env (e, 0)
    else skipRec a

/-- The fields that the Derrick writes into an image's header. -/
def headOf (s : DrkStruct) : List Byte := leBytes 2 s.nq ++ leBytes 2 s.nv ++ leBytes 2 s.rows ++ leBytes 1 0

/-- STRUCT (R234, R243): the image is read once, through the region's memory controller; the Derrick writes its derived
fields and the load status. An image whose header is no memory of the context cannot take a status. [DEDUCED, log 40] -/
def applyStruct (a : Applied) (c k : Nat) (r : DRec) : Applied :=
  let at_ := BitVec.ofNat 64 (r.vals.getD 0 0)
  let l := faLocal at_
  if r.count ≠ 3 ∨ 15 < r.index ∨ inMemory a.b c at_ 0x240 = false then skipRec a
  else
    let head := rdKeys a.b l 0x240
    let n := 0x240 + 192 * le16 head 2 + 96 * le16 head 4
    let whole := inMemory a.b c at_ n
    let rd := readOwn a.b l (if whole then n else 0x240)
    let area := BitVec.ofNat 64 (r.vals.getD 1 0)
    let inside := inStackAt a.b c k at_ n && inStackAt a.b c k area (r.vals.getD 2 0)
    let inUse := a.d.envs.any fun e => e.2.ctx == c && e.2.slot == r.index
    if rd.1.2.isSome then { a with b := rd.1.1, fault := true }
    else match loadStruct c whole inside inUse rd.2 (faLocal area) (r.vals.getD 2 0) with
    | .inl st => { a with b := (writeMem rd.1.1 (l + 0xC) (l + 0xC) (leBytes 1 st)).1 }
    | .inr s =>
      let w := writeMem rd.1.1 (l + 6) (l + 6) (headOf s)
      { a with
        d := { a.d with structs := tins a.d.structs (slotKey c r.index) s }
        b := (writeMem w.1 (l + 0x10) (l + 0x10) (leBytes 8 s.stride)).1
        clamps := a.clamps + tableClamps rd.2
        sats := a.sats + (imageMet rd.2 s.bodies s.slots).2.2 }

/-- The environment of a context, with its structure. -/
def envOf (d : Drk) (c n : Nat) : Option (DrkEnv × DrkStruct) :=
  match tlook d.envs (envKey c n) with
  | some e => (tlook d.structs (slotKey c e.slot)).map fun s => (e, s)
  | none => none

/-- One record (R243, R246). Round records are looked for among all of the round's: `applySpecs` counts them.
[DEDUCED, log 38] -/
def applyRec (c k : Nat) (a : Applied) (r : DRec) : Applied :=
  if r.kind = 0x01 then applyInit a c r
  else if r.kind = 0x10 then applyStruct a c k r
  else if r.kind = 0x11 then (if r.count = 8 then a else skipRec a)
  else if 4095 < r.env then skipRec a
  else match envOf a.d c r.env with
    | some x => applyEnv a x.2 x.1 r
    | none => skipRec a

/-- Round records of the round's batches but the one the round took: each is discarded and counts one clamp (R246). -/
def applySpecs (round : Nat) (l : List Batch) : Nat :=
  let all := l.flatMap fun x => x.specs
  all.length - (all.any fun x => x.1 == round).toNat

/-- Order of R201: ascending tile, then submission. -/
def batchLe (x y : Batch) : Bool := decide (x.tile < y.tile) || (x.tile == y.tile && decide (x.sub ≤ y.sub))

def insertBatch (x : Batch) : List Batch → List Batch
  | [] => [x]
  | y :: r => if batchLe x y then x :: y :: r else y :: insertBatch x r

def sortBatches (l : List Batch) : List Batch := l.foldr insertBatch []

/-- Free what a Derrick holds for a context (R228). [DEDUCED, log 40] -/
def drkFree (d : Drk) (c : Nat) : Drk :=
  { d with
    queue := d.queue.filter fun x => x.ctx != c, subs := d.subs.filter fun x => x.ctx != c,
    structs := d.structs.filter fun e => e.2.ctx != c, envs := d.envs.filter fun e => e.2.ctx != c,
    ctx := tdel d.ctx c }

/-- A free place of the queue area (R200, R229). [DEDUCED, log 39] -/
def freePlace (d : Drk) : Option Nat := (List.range 256).find? fun n => (stored d).all fun x => x.place != n

end Sys2Proof.Machine
end

