-- ==== Sys2Proof/Machine/Trans.lean ====
section
/-!
DEFINITION. The functions of EWU that are not rational (R178): each result is the exact value truncated to at least 80
leading bits with a sticky bit, so that one rounding of it is the rounding of the exact value (R177). An enclosure is
computed at 400, 800 and 1600 bits; should none decide the leading bits, the result is a free value.
-/
namespace Sys2Proof.Machine

/-- Fixed-point product at scale 2^p. -/
def fxMul (p : Nat) (a b : Int) : Int := (a * b) / 2 ^ p

/-- Σ term_n, where term_{n+1} = term_n × x ÷ (d n), at scale 2^p, from term `t` at index `n`. -/
def fxSeries (p : Nat) (x : Int) (d : Nat → Nat) : Nat → Nat → Int → Int → Int
  | 0, _, _, acc => acc
  | k + 1, n, t, acc => fxSeries p x d k (n + 1) (fxMul p t x / d n) (acc + t)

/-- Σ z^(2n+1) ÷ (2n+1) at scale 2^p. -/
def fxAtanh (p : Nat) (z2 : Int) : Nat → Nat → Int → Int → Int
  | 0, _, _, acc => acc
  | k + 1, n, t, acc => fxAtanh p z2 k (n + 1) (fxMul p t z2) (acc + t / (2 * n + 1 : Nat))

/-- ln 2 at scale 2^p. -/
def fxLn2 (p : Nat) : Int :=
  let z : Int := 2 ^ p / 3
  2 * fxAtanh p (fxMul p z z) (p / 3 + 4) 0 z 0

/-- arctan (1/n) at scale 2^p. -/
def fxAtanInv (p n : Nat) : Int :=
  let z : Int := 2 ^ p / n
  fxAtanh p (-(fxMul p z z)) (p / 4 + 4) 0 z 0

/-- π at scale 2^p, by Machin's formula. -/
def fxPi (p : Nat) : Int := 4 * (4 * fxAtanInv p 5 - fxAtanInv p 239)

/-- A magnitude m × 2^e at scale 2^p, rounded down. -/
def fxOf (p m : Nat) (e : Int) : Int :=
  let sh := e + p
  if 0 ≤ sh then (m <<< sh.toNat : Nat) else (m >>> (-sh).toNat : Nat)

/-- e^x for x at scale 2^p: mantissa at scale 2^p in about [1, 2), and the power of two. -/
def fxExp (p : Nat) (x : Int) : Int × Int :=
  let l := fxLn2 p
  let k := x / l
  let r := x - k * l
  (fxSeries p r (fun n => n + 1) (p / 2) 0 (2 ^ p) 0, k)

/-- The leading bits that an approximation `a` with error at most 2^24 at exponent `e` decides. -/
def leading (a e : Int) : Option (Nat × Int) :=
  let lo := (a - 2 ^ 24).toNat
  let hi := (a + 2 ^ 24).toNat
  let drop := Nat.log2 lo - 90
  if 2 ^ 100 ≤ lo && lo >>> drop == hi >>> drop then some (lo >>> drop, e + drop) else none

/-- Just below m × 2^e. -/
def justBelow (s : Bool) (m : Nat) (e : Int) : FRes := ⟨.fin s ((m <<< 100) - 1) (e - 100), true, false⟩

/-- Just above m × 2^e. -/
def justAbove (s : Bool) (m : Nat) (e : Int) : FRes := ⟨.fin s m e, true, false⟩

/-- e^x for a nonzero finite x. -/
def trExp (p : Nat) (s : Bool) (m : Nat) (e : Int) : Option FRes :=
  let top := e + Nat.log2 m
  if top < -100 then some (if s then justBelow false 1 0 else justAbove false 1 0)
  else if top ≥ 12 then some (justAbove false 1 (if s then -9000 else 9000))
  else
    let x := if s then -(fxOf p m e) - 1 else fxOf p m e
    let r := fxExp p x
    (leading r.1 (r.2 - p)).map fun u => ⟨.fin false u.1 u.2, true, false⟩

/-- ln x for x above zero and not 1. -/
def trLn (p : Nat) (m : Nat) (e : Int) : Option FRes :=
  let n := Nat.log2 m
  let y := fxOf p m (-(n : Int))
  let k := e + n
  let z := ((y - 2 ^ p) * 2 ^ p) / (y + 2 ^ p)
  let l := k * fxLn2 p + 2 * fxAtanh p (fxMul p z z) (p / 3 + 4) 0 z 0
  (leading l.natAbs (-(p : Int))).map fun u => ⟨.fin (decide (l < 0)) u.1 u.2, true, false⟩

/-- tanh x for a nonzero finite x. -/
def trTanh (p : Nat) (s : Bool) (m : Nat) (e : Int) : Option FRes :=
  let top := e + Nat.log2 m
  if top < -64 then some (justBelow s m e)
  else if top ≥ 7 then some (justBelow s 1 0)
  else
    let r := fxExp p (2 * fxOf p m e)
    let ex := r.1 * 2 ^ r.2.toNat
    (leading ((ex - 2 ^ p) * 2 ^ p / (ex + 2 ^ p)) (-(p : Int))).map fun u => ⟨.fin s u.1 u.2, true, false⟩

/-- 1 ÷ (1 + e^-x) for a nonzero finite x. -/
def trLogistic (p : Nat) (s : Bool) (m : Nat) (e : Int) : Option FRes :=
  let top := e + Nat.log2 m
  if top < -100 then some (if s then justBelow false 1 (-1) else justAbove false 1 (-1))
  else if !s && top ≥ 8 then some (justBelow false 1 0)
  else if s && top ≥ 12 then some (justAbove false 1 (-9000))
  else
    let r := fxExp p (-(fxOf p m e) - 1)
    let t := if 0 ≤ r.2 then r.1 * 2 ^ r.2.toNat else r.1 / 2 ^ (-r.2).toNat
    if s then (leading (r.1 * 2 ^ p / (2 ^ p + t)) (r.2 - p)).map fun u => ⟨.fin false u.1 u.2, true, false⟩
    else (leading (2 ^ p * 2 ^ p / (2 ^ p + t)) (-(p : Int))).map fun u => ⟨.fin false u.1 u.2, true, false⟩

/-- Σ (-x²)^n ÷ (n! (2n+1)) at scale 2^p. -/
def fxErfSum (p : Nat) (mx2 : Int) : Nat → Nat → Int → Int → Int
  | 0, _, _, acc => acc
  | k + 1, n, t, acc =>
    fxErfSum p mx2 k (n + 1) (fxMul p t mx2 / (n + 1 : Nat)) (acc + t / (2 * n + 1 : Nat))

/-- erf x for a nonzero finite x. -/
def trErf (p : Nat) (s : Bool) (m : Nat) (e : Int) : Option FRes :=
  let top := e + Nat.log2 m
  if top ≥ 3 then some ⟨.fin s (2 ^ 60 - 1) (-60), true, false⟩
  else
    let p2 := p + 128
    let x := fxOf p2 m e
    let sum := fxErfSum p2 (-(fxMul p2 x x)) (p2 + 128) 0 (2 ^ p2) 0
    let rootPi : Int := isqrt ((fxPi (2 * p2)).toNat)
    let ratio := 2 * sum * 2 ^ p2 / rootPi
    let a := (ratio / 2 ^ 100) * m / 2 ^ 48
    (leading a (e - p2 + 148)).map fun u => ⟨.fin s u.1 u.2, true, false⟩

/-- sin (or cos) of a nonzero finite x, by reduction to a quadrant. -/
def trSinCos (isCos : Bool) (p : Nat) (s : Bool) (m : Nat) (e : Int) : Option FRes :=
  let top := e + Nat.log2 m
  if top < -60 then some (if isCos then justBelow false 1 0 else justBelow s m e)
  else
    let pp := p + (max 0 top).toNat + 64
    let hp := fxPi pp / 2
    let x := fxOf pp m e
    let q := x / hp
    let r := (x - q * hp) / 2 ^ (pp - p)
    let r2 := fxMul p r r
    let sn := fxSeries p (-r2) (fun n => (2 * n + 2) * (2 * n + 3)) (p / 2) 0 r 0
    let cs := fxSeries p (-r2) (fun n => (2 * n + 1) * (2 * n + 2)) (p / 2) 0 (2 ^ p) 0
    let k := (q + if isCos then 1 else 0) % 4
    let v := if k % 2 = 0 then sn else cs
    let neg := decide (k ≥ 2) != (!isCos && s)
    (leading v (-(p : Int))).map fun u => ⟨.fin neg u.1 u.2, true, false⟩

/-- The first precision that decides. [DEDUCED, log 30] -/
def decideAt (f : Nat → Option FRes) : List Nat → Option FRes
  | [] => none
  | p :: r => match f p with | some x => some x | none => decideAt f r

/-- A function of R178 by its code, for a nonzero finite operand where its value is not exact. [DEDUCED, log 30] -/
def transcend (code : Nat) (s : Bool) (m : Nat) (e : Int) : FRes :=
  let f : Nat → Option FRes := fun p => match code with
    | 0x09 => trExp p s m e
    | 0x0A => trLn p m e
    | 0x0B => trTanh p s m e
    | 0x0C => trLogistic p s m e
    | 0x0E => trErf p s m e
    | 0x0F => trSinCos false p s m e
    | _ => trSinCos true p s m e
  (decideAt f [400, 800, 1600]).getD (Config.freeFn code (.fin s m e))

/-- 1 ÷ √x for x above zero, exactly with a sticky bit. -/
def invSqrt (m : Nat) (e : Int) : FRes :=
  let sh := Nat.log2 m + 200 + (if (e + (Nat.log2 m + 200 : Nat)) % 2 = 0 then 0 else 1)
  let r := isqrt (2 ^ sh / m)
  ⟨.fin false r (-(e + sh) / 2), r * r * m != 2 ^ sh, false⟩

def fvOne : FVal := .fin false 1 0
def fvZero : FVal := .fin false 0 0

/-- The EWU function of R178 with code `c` (all but dropout), on an operand of the computation format and the scalar g
already rounded to it. -/
def ewuFn (c : Nat) (x g : FVal) : FRes :=
  if fIsNan x then ⟨.nan, false, false⟩
  else match c, x with
    | 0x00, _ => ⟨x, false, false⟩
    | 0x01, _ => ⟨fNeg x, false, false⟩
    | 0x02, _ => ⟨fAbs x, false, false⟩
    | 0x03, _ => fMul x g
    | 0x04, _ => fAdd x g
    | 0x05, _ => fMul x x
    | 0x06, _ => fSqrt x
    | 0x07, .inf s => if s then ⟨.nan, false, true⟩ else ⟨fvZero, false, false⟩
    | 0x07, .fin s m e =>
      if m = 0 then ⟨.inf s, false, false⟩ else if s then ⟨.nan, false, true⟩ else invSqrt m e
    | 0x08, _ => fDiv fvOne x
    | 0x09, .inf s => if s then ⟨fvZero, false, false⟩ else ⟨.inf false, false, false⟩
    | 0x09, .fin s m e => if m = 0 then ⟨fvOne, false, false⟩ else transcend 0x09 s m e
    | 0x0A, .inf s => if s then ⟨.nan, false, true⟩ else ⟨.inf false, false, false⟩
    | 0x0A, .fin s m e =>
      if m = 0 then ⟨.inf true, false, false⟩
      else if s then ⟨.nan, false, true⟩
      else if fEq x fvOne then ⟨fvZero, false, false⟩ else transcend 0x0A s m e
    | 0x0B, .inf s => ⟨.fin s 1 0, false, false⟩
    | 0x0B, .fin s m e => if m = 0 then ⟨x, false, false⟩ else transcend 0x0B s m e
    | 0x0C, .inf s => if s then ⟨fvZero, false, false⟩ else ⟨fvOne, false, false⟩
    | 0x0C, .fin s m e => if m = 0 then ⟨.fin false 1 (-1), false, false⟩ else transcend 0x0C s m e
    | 0x0D, _ => ⟨fMax x fvZero, false, false⟩
    | 0x0E, .inf s => ⟨.fin s 1 0, false, false⟩
    | 0x0E, .fin s m e => if m = 0 then ⟨x, false, false⟩ else transcend 0x0E s m e
    | 0x0F, .inf _ => ⟨.nan, false, true⟩
    | 0x0F, .fin s m e => if m = 0 then ⟨x, false, false⟩ else transcend 0x0F s m e
    | 0x10, .inf _ => ⟨.nan, false, true⟩
    | 0x10, .fin s m e => if m = 0 then ⟨fvOne, false, false⟩ else transcend 0x10 s m e
    | _, _ => ⟨fMin (fMax x (fNeg (fAbs g))) (fAbs g), false, false⟩

/-- The EWB function of R180. -/
def ewbFn (c : Nat) (a b g : FVal) : FRes :=
  if fIsNan a || fIsNan b then ⟨.nan, false, false⟩
  else match c with
    | 0 => fAdd a b
    | 1 => fSub a b
    | 2 => fMul a b
    | 3 => fDiv a b
    | 4 => ⟨fMax a b, false, false⟩
    | 5 => ⟨fMin a b, false, false⟩
    | 6 => fFma a b g
    | 7 => fFma g b a
    | _ => let d := fSub a b; if d.gen then d else fMul d.v d.v

end Sys2Proof.Machine
end

