-- ==== Sys2Proof/Machine/UpdateTable.lean ====
section
/-!
DEFINITION. The group entries of the update table and its schedules (R366, R367, R373 to R375), and the binary64 arithmetic
of an update (R372).
-/
namespace Sys2Proof.Machine

def wrNat (b : Block) (a n v : Nat) : Block := (writeMem b a a (leBytes n v)).1
def addMem64 (b : Block) (a n : Nat) : Block := (updateMem b a a 8 (addWord (BitVec.ofNat 64 n))).1

/-- A group entry's program fields (R366). -/
structure Grp where
  flags : Nat
  gshift : Int
  gclamp : Nat
  step : Nat
  sched : U64
  beta1 : FVal
  beta2 : FVal
  eps : FVal
  lambda : FVal

def rdF64 (b : Block) (a : Nat) : FVal := fdecode .f64 (rdNat b a 8)

def readGrp (b : Block) (x : Ctx) (g : Nat) : Grp :=
  let a := grpBase x g
  let s := (BitVec.ofNat 8 (rdNat b (a + 1) 1)).toInt
  let t := clampI (-64) 63 s
  { flags := rdNat b a 1, gshift := t, gclamp := if t = s then 0 else 1, step := rdNat b (a + 8) 6,
    sched := BitVec.ofNat 64 (rdNat b (a + 0x10) 8), beta1 := rdF64 b (a + 0x18), beta2 := rdF64 b (a + 0x20),
    eps := rdF64 b (a + 0x28), lambda := rdF64 b (a + 0x30) }

def grpValid (g : Grp) : Bool := g.flags.testBit 0
def grpFrozen (g : Grp) : Bool := g.flags.testBit 1
def grpNorm (g : Grp) : Bool := g.flags.testBit 2
def grpWide (g : Grp) : Bool := g.flags.testBit 3
def grpFmt (g : Grp) : Fmt := if grpWide g then .f64 else .f32
def grpWidth (g : Grp) : Nat := if grpWide g then 8 else 4
/-- The rule of a group: code 3 is taken as 2 (R366). -/
def grpRule (g : Grp) : Nat := min 2 (g.flags / 64 % 4)

/-! ### Binary64 with events -/

abbrev V64 := FVal × Ev

def r64 (r : FRes) : V64 := let c := finish .f64 .nearest r; (fdecode .f64 c.1, c.2)
def v64 (x : FVal) : V64 := (x, {})
def op1 (f : FVal → FRes) (x : V64) : V64 := let r := r64 (f x.1); (r.1, evAdd x.2 r.2)
def op2 (f : FVal → FVal → FRes) (x y : V64) : V64 := let r := r64 (f x.1 y.1); (r.1, evAdd (evAdd x.2 y.2) r.2)
def op3 (f : FVal → FVal → FVal → FRes) (x y z : V64) : V64 :=
  let r := r64 (f x.1 y.1 z.1); (r.1, evAdd (evAdd x.2 (evAdd y.2 z.2)) r.2)
def neg64 (x : V64) : V64 := (fNeg x.1, x.2)

/-- Drop the events of an operand whose own computation is counted elsewhere. -/
def quiet (x : V64) : V64 := (x.1, {})

/-- Left-to-right square and multiply over 48 bits (R372). -/
def powN (base : V64) (t : Nat) : Nat → V64 → V64
  | 0, y => y
  | n + 1, y =>
    let s := op2 fMul y (quiet y)
    powN base t n (if t.testBit n then op2 fMul s base else s)

def pow48 (x : FVal) (t : Nat) : V64 := powN (v64 x) t 48 (v64 fvOne)

def isFinite : FVal → Bool
  | .fin _ _ _ => true | _ => false

/-! ### Schedules -/

structure Knot where
  step : Nat
  kind : Nat
  v : FVal

/-- The knots in force: the table ends before a knot whose step does not rise (R374). -/
def risingKnots : List Knot → List Knot
  | [] => []
  | [k] => [k]
  | k :: j :: r => if k.step < j.step then k :: risingKnots (j :: r) else [k]

/-- The knots of a schedule table and the clamps of R374; none where the address is 0 or unmapped. [DEDUCED, log 41] -/
def readSched (b : Block) (c : Nat) (a : U64) : Option (List Knot × Nat) :=
  match (if a = 0 then Where.bad else whereIs b c a) with
  | .mem key =>
    let k0 := rdNat b key 1
    let k := if k0 = 0 then 1 else min k0 64
    let raw := (List.range k).map fun j =>
      let p := key + 16 + 16 * j
      ({ step := rdNat b p 6, kind := rdNat b (p + 6) 1, v := rdF64 b (p + 8) } : Knot)
    let l := risingKnots raw
    some (l.map fun x => { x with kind := min 2 x.kind },
      (k0 == 0 || decide (k0 > 64)).toNat + (decide (l.length < k)).toNat + (l.filter fun x => decide (x.kind > 2)).length)
  | _ => none

def natV (n : Nat) : FVal := .fin false n 0

/-- The binary64 nearest π. -/
def pi64 : FVal := fdecode .f64 0x400921FB54442D18

def cosV (p : FVal) : FRes := ewuFn 0x10 p fvZero

/-- sched of R375 on a table's knots. [DEDUCED, log 41] -/
def schedOf (l : List Knot) (n : Nat) : V64 :=
  match l with
  | [] => v64 fvZero
  | k0 :: _ =>
    let kl := l.getLastD k0
    if n ≤ k0.step then v64 k0.v
    else if kl.step ≤ n then v64 kl.v
    else
      let i := (l.filter fun x => decide (x.step ≤ n)).length - 1
      let a := l.getD i k0
      let z := l.getD (i + 1) k0
      let x := r64 (fDiv (natV (n - a.step)) (natV (z.step - a.step)))
      if a.kind = 2 then v64 a.v
      else if a.kind = 0 then op3 fFma (op2 fSub (v64 z.v) (v64 a.v)) x (v64 a.v)
      else
        let p := op2 fMul (v64 pi64) x
        let h := op2 fMul (op2 fAdd (v64 fvOne) (op1 cosV p)) (v64 (.fin false 1 (-1)))
        op3 fFma (op2 fSub (v64 a.v) (v64 z.v)) h (v64 z.v)

/-- η of a group and the clamps STEPEND counts for it (R374). [DEDUCED, log 41] -/
def etaOf (b : Block) (c : Nat) (g : Grp) : V64 × Nat :=
  match readSched b c g.sched with
  | none => (v64 fvZero, 1)
  | some l => (schedOf l.1 g.step, l.2)

end Sys2Proof.Machine
end

