-- ==== Sys2Proof/Machine/Update.lean ====
section
/-!
DEFINITION. The update class (R369 to R372, R376 to R383).
-/
namespace Sys2Proof.Machine

/-- A shard record (R368). -/
structure Shard where
  group : Nat
  n : Nat
  counter : Nat
  seams : Nat
  master : Nat
  mom : Nat
  var : Nat
  notify : U64
  notifyN : Nat
  copy : BitVec 256

def readShard (b : Block) (a : Nat) : Shard :=
  { group := rdNat b a 1, n := rdNat b (a + 8) 8 / 256 * 256, counter := rdNat b (a + 0x10) 8,
    seams := rdNat b (a + 0x18) 8, master := rdNat b (a + 0x20) 8, mom := rdNat b (a + 0x28) 8,
    var := rdNat b (a + 0x30) 8, notify := BitVec.ofNat 64 (rdNat b (a + 0x38) 8), notifyN := rdNat b (a + 0x40) 4,
    copy := BitVec.ofNat 256 (rdNat b (a + 0x60) 32) }

/-- Lowest address of [a, a + n) that does not lie in stack k within the context's memory. -/
def lowBad (b : Block) (c k a n : Nat) : Option Nat :=
  if n = 0 then none
  else ((List.range (pageOf (a + n - 1) + 1 - pageOf a)).map fun p => max a ((pageOf a + p) * 0x200000)).find? fun x =>
    !(decide (k * 2 ^ 36 ≤ x) && decide (x < (k + 1) * 2 ^ 36) && tlook b.pages (pageOf x) == some c)

/-- The same of a range by its fabric address: another module's does not lie in the stack. -/
def lowBadAt (b : Block) (c k : Nat) (a : U64) (n : Nat) : Option U64 :=
  if n = 0 then none
  else if faModule a = b.geo.own then (lowBad b c k (faLocal a) n).map (ownAddr b) else some a

/-- The short copy's descriptor, where the shard has a copy that takes elements (R380). -/
def copyDesc (h : Shard) : Option (Desc × Fmt) :=
  let d := (readDesc true h.copy).1
  if dbits h.copy 11 53 = 0 then none else d.fmt.map fun f => (d, f)

/-- The block array of the copy's scale record: none where the view has no record, or the record no array. -/
def copyBlocks (b : Block) (c : Nat) (i : UnitImg) (d : Desc) : Option U64 :=
  if d.sr = 0 then none
  else
    let p := (readScale b c i d.sr).blocks
    if p = 0 then none else some p

/-- The lowest addresses that R368 does not find in stack k: of the arrays, the counter and the copy view. The copy's scale
record and its block array must be mapped like any memory an instruction touches (R110). -/
def shardBad (b : Block) (c k : Nat) (i : UnitImg) (h : Shard) (w : Nat) (useVar : Bool) : List U64 :=
  (([(h.counter, 8), (h.seams, 64 * h.n), (h.master, w * h.n), (h.mom, w * h.n)] ++
      if useVar then [(h.var, w * h.n)] else []).filterMap fun r => (lowBad b c k r.1 r.2).map (ownAddr b)) ++
    match copyDesc h with
    | none => []
    | some (d, _) =>
      ((viewRanges d).filterMap fun r => lowBadAt b c k r.1 r.2) ++
        (if d.sr = 0 then [] else (badByte b c d.sr 24).toList) ++
        match copyBlocks b c i d with
        | some p => (badByte b c p (h.n / 256)).toList
        | none => []

def leastAddr (l : List U64) : Option U64 :=
  match l with
  | [] => none
  | x :: r => some (r.foldl (fun m y => if y.toNat < m.toNat then y else m) x)

/-- The operands after the clamps of R370: shard record, first element, count, clamps. -/
structure Span where
  rec_ : Nat
  first : Nat
  count : Nat
  clamps : Nat

/-- A record or seam slot address: own module, low bits cleared; one clamp where it is replaced (R370). -/
def recOp (b : Block) (x : U64) : U64 × Nat :=
  let r := (alignTo 64 (localOp b x).1).1
  (r, (r != x).toNat)

def spanOf (b : Block) (i : UnitImg) (o : Ops) (n : Nat) : Span :=
  let a := recOp b (sreg i (fa o))
  let f0 := (sreg i (fb o)).toNat
  let f := min (f0 / 256 * 256) n
  let c0 := (sreg i (fc o)).toNat
  let c := min (c0 / 256 * 256) (n - f)
  { rec_ := faLocal a.1, first := f, count := c, clamps := a.2 + (f != f0).toNat + (c != c0).toNat }

/-- The gradient of one seam (R371), with the events of its rounding. -/
def gradOf (g : Grp) (s : Seam) : V64 :=
  let v := seamValue s
  let c := convertTo (grpFmt g) .nearest false 0 0 (fScale g.gshift v.1) false
  (fdecode (grpFmt g) c.1, evAdd v.2 (evOf c.2 false))

/-- Count events and the Reckoner's own counters. -/
def rckCount (i : UnitImg) (e : Ev) (refuse nonfin skip : Nat) : UnitImg :=
  let j := countEv i e
  { j with cnt := { j.cnt with
      refuse := satAdd j.cnt.refuse refuse, nonfin := satAdd j.cnt.nonfin nonfin, skip := satAdd j.cnt.skip skip } }

/-- One more update instruction and its elements in the hardware counters (R386). -/
def rckHw (b : Block) (k elems : Nat) : Block :=
  let r := rckOf b k
  let n := r.elemsLow + elems
  setRck b k { r with instr := satAdd r.instr 1, elems := satAdd r.elems (n / 65536), elemsLow := n % 65536 }

/-- A Reckoner fault, a region fault: cause 1 its datapath store, 2 a stack word met by an update (R386). -/
def rckFault (b : Block) (k cause : Nat) : Block :=
  regionFault (setRck b k { rckOf b k with fault := BitVec.ofNat 2 cause }) k 3

/-- Take n seam slots (R280). -/
def takeSeams (b : Block) (a n : Nat) : Block := (writeMem b a a (List.replicate (64 * n) 0)).1

/-- What an instruction's reads of memory meet, by key, local address and length: the first word that cannot be corrected
ends them. -/
def readsMet : Block → List (Nat × Nat × Nat) → Block × Option Nat
  | b, [] => (b, none)
  | b, r :: t =>
    let x := readMem b r.1 r.2.1 r.2.2
    match x.2 with
    | some e => (x.1, some e)
    | none => readsMet x.1 t

/-- An update instruction on what it reads: an uncorrectable word of the region's stack is a Reckoner fault, one elsewhere
the fault of the memory that holds it (R268, R386). -/
def onReads (b : Block) (k : Nat) (l : List (Nat × Nat × Nat)) (eff : Block → Block) : Block :=
  if (rckOf b k).storeBad then rckFault (setRck b k { rckOf b k with storeBad := false }) k 1
  else
    let r := readsMet b l
    match r.2 with
    | none => eff r.1
    | some e => if spaceOf (e % 2 ^ 49) = .stack k then rckFault r.1 k 2 else memFault r.1 e

def localReads (l : List (Nat × Nat)) : List (Nat × Nat × Nat) := l.map fun r => (r.1, r.1, r.2)

/-- A local range by its fabric address. -/
def readAt (b : Block) (c : Nat) (a : U64) (n : Nat) : List (Nat × Nat × Nat) :=
  match whereIs b c a with
  | .mem key => [(key, faLocal a, n)]
  | _ => []

/-- Retire with the result registers that `f` writes: the built-in program's registers are its own (R162). -/
def retireOut (b : Block) (c : Nat) (u : UnitId) (w : U64) (f g : UnitImg → UnitImg) : Block :=
  let i := g (img b c u)
  retireAfter b c u w (if i.builtin then i else f i)

/-! ### The formulas of R372 -/

structure Scalars where
  eta : V64
  k1 : V64
  k2 : V64
  a : V64
  dd : V64
  ob1 : V64
  ob2 : V64

def scalarsOf (g : Grp) (eta : V64) : Scalars :=
  let one := v64 fvOne
  let k1 := op2 fSub one (pow48 g.beta1 (g.step + 1))
  { eta := eta, k1 := k1, k2 := op2 fSub one (pow48 g.beta2 (g.step + 1)), a := op2 fDiv (quiet eta) (quiet k1),
    dd := op2 fMul (quiet eta) (v64 g.lambda), ob1 := op2 fSub one (v64 g.beta1), ob2 := op2 fSub one (v64 g.beta2) }

/-- The events of a group's scalars: every rule forms them all (R372). -/
def scalarEv (s : Scalars) : Ev :=
  evAdd (evAdd (evAdd s.eta.2 s.k1.2) (evAdd s.k2.2 s.a.2)) (evAdd s.dd.2 (evAdd s.ob1.2 s.ob2.2))

structure Elem where
  w : FVal
  m : FVal
  v : FVal
  ev : Ev

/-- New w, m and v of one element (R372); rule 0 is ADAM, 1 ADAMW, 2 SGDM. -/
def updateElem (rule : Nat) (g : Grp) (s : Scalars) (grad : V64) (w m v : FVal) : Elem :=
  let lam0 := fIsZero g.lambda
  let q := quiet
  if rule = 2 then
    let g1 := if lam0 then grad else op3 fFma (v64 g.lambda) (v64 w) grad
    let m1 := op3 fFma (v64 g.beta1) (v64 m) g1
    let st := if g.flags.testBit 4 then op3 fFma (v64 g.beta1) m1 (q g1) else m1
    let w1 := op3 fFma (neg64 (q s.eta)) st (v64 w)
    ⟨w1.1, m1.1, v, w1.2⟩
  else
    let g1 := if rule = 0 && !lam0 then op3 fFma (v64 g.lambda) (v64 w) grad else grad
    let u1 := op2 fMul (q s.ob1) g1
    let m1 := op3 fFma (v64 g.beta1) (v64 m) u1
    let u2 := op2 fMul (op2 fMul (q s.ob2) (q g1)) (q g1)
    let v1 := op3 fFma (v64 g.beta2) (v64 v) u2
    let r := op1 fSqrt (op2 fDiv v1 (q s.k2))
    let den := op2 fAdd r (v64 g.eps)
    let qq := op2 fDiv m1 den
    let wd := if rule = 1 then op3 fFma (neg64 (q s.dd)) (v64 w) (v64 w) else v64 w
    let w1 := op3 fFma (neg64 (q s.a)) qq wd
    ⟨w1.1, m1.1, v1.1, w1.2⟩

/-- Store a binary64 value in the group's precision, rounded once (R372). -/
def storeV (f : Fmt) (x : FVal) : Nat × Ev := let c := convertTo f .nearest false 0 0 x false; (c.1, evOf c.2 false)

/-- An element as it is written: the codes of w, m and v, whether its gradient was finite, its events. -/
structure Stored where
  w : Nat
  m : Nat
  v : Nat
  live : Bool
  ev : Ev

/-- An event of an element counts once (R31). -/
def oncePerElem (e : Ev) : Ev := { e with nangen := min 1 e.nangen, sat := min 1 e.sat }

/-- One element by its seam and its codes: formed, and updated or left (R371, R372). [DEDUCED, log 42] -/
def updElem (rule : Nat) (g : Grp) (s : Scalars) (clip : FVal) (seam : List Byte) (w m v : Nat) : Stored :=
  let f := grpFmt g
  let g0 := gradOf g (seamOfBytes seam)
  let g1 := if grpNorm g then op2 fMul g0 (v64 clip) else g0
  if isFinite g1.1 then
    let x := updateElem rule g s g1 (fdecode f w) (fdecode f m) (if rule = 2 then fvZero else fdecode f v)
    let cw := storeV f x.w
    let cm := storeV f x.m
    let cv := if rule = 2 then (v, {}) else storeV f x.v
    { w := cw.1, m := cm.1, v := cv.1, live := true, ev := oncePerElem (evAdd x.ev (evAdd cw.2 (evAdd cm.2 cv.2))) }
  else { w := w, m := m, v := v, live := false, ev := oncePerElem g1.2 }

/-- What an update accumulates over its blocks: also whether blocks lay beyond the copy's view (R380). -/
structure Acc where
  b : Block
  updated : Nat := 0
  nonfin : Nat := 0
  ev : Ev := {}
  digest : BitVec 128 := 0
  beyond : Bool := false

def hWeight : BitVec 128 := 0x5A17C3E90B6D4F2891E67A0CD35B2F84

/-- A master word's contribution to the weight digest (R381). -/
def weightTerm (x a : Nat) : BitVec 128 := gf128Mul (BitVec.ofNat 128 x) (gf128Pow hWeight (1 + a / 4))

/-! ### The short copy (R380) -/

/-- The map bit of a copy sett, from the tile SRAM of logical tile 96 × k. -/
def copyWem (b : Block) (c k : Nat) (d : Desc) (n : Nat) : Bool :=
  d.wem = 0 || tilesIn b k = 0 ||
    (let o := d.wem * 2048 + n / 8
     if o < 0x180000 then (rdKey b (sramKey c (96 * k) o)).getLsbD (n % 8) else true)

/-- The map bytes an update reads in that tile's SRAM. -/
def copyMapReads (b : Block) (c k : Nat) (d : Desc) : List (Nat × Nat × Nat) :=
  let o := d.wem * 2048
  if d.wem = 0 ∨ tilesIn b k = 0 ∨ 0x180000 ≤ o then []
  else [(sramKey c (96 * k) o, sramBase + 96 * k * 0x200000 + o, min ((settCount d + 7) / 8) (0x180000 - o))]

/-- Write one block of 256 stored words to the copy view: the block, its events, and whether it lay beyond the view. -/
def copyBlock (b : Block) (c k : Nat) (u : UnitId) (d : Desc) (f : Fmt) (first : Nat) (words : List FVal) :
    Block × Ev × Bool :=
  let n := first / settElems d
  if n ≥ settCount d then (b, {}, true)
  else if !copyWem b c k d n then (b, {}, false)
  else
    let blocks := copyBlocks b c (img b c u) d
    let mb := maxMag words
    let k0 := if fIsZero mb then 0 else cexpOf mb - fmtEf f
    let kb := if blocks.isNone then 0 else clampI (-127) 128 k0
    let codes := words.map fun x => convertTo f .nearest false 0 kb x false
    let bitsN := (codes.map Prod.fst).foldr (fun x t => x + t * 2 ^ fmtWidth f) 0
    let len := 32 * fmtWidth f
    let at_ := faLocal (settRange d n).1 + first % settElems d * fmtWidth f / 8
    let b1 := (writeMem b at_ at_ (leBytes len bitsN)).1
    let b2 := match blocks with
      | none => b1
      | some p => storeBytes b1 c u (addrAdd p (first / 256)) (leBytes 1 (kb + 127).toNat)
    (b2, { sat := (codes.filter Prod.snd).length,
           clamp := if blocks.isNone then 1 else (kb != k0).toNat }, false)

/-- The codes of n elements from element `first` of an array, w bytes each. -/
def codesAt (b : Block) (a w first n : Nat) : List Nat := (List.range n).map fun j => rdNat b (a + w * (first + j)) w

def putCodes (b : Block) (a w first : Nat) (l : List Nat) : Block :=
  (writeMem b (a + w * first) (a + w * first) (l.flatMap fun x => leBytes w x)).1

/-- One block of 256 elements of an update, then its copy: the block's seams are taken, and its words written, as whole
lines (R274). -/
def updBlock (rule : Nat) (h : Shard) (g : Grp) (s : Scalars) (clip : FVal) (c k : Nat) (u : UnitId) (z : Acc) (first : Nat) :
    Acc :=
  let w := grpWidth g
  let l := (List.range 256).map fun j =>
    let e := first + j
    updElem rule g s clip (rdKeys z.b (h.seams + 64 * e) 64) (rdNat z.b (h.master + w * e) w) (rdNat z.b (h.mom + w * e) w)
      (if rule = 2 then 0 else rdNat z.b (h.var + w * e) w)
  let b1 := takeSeams z.b (h.seams + 64 * first) 256
  let b2 := putCodes (putCodes b1 h.master w first (l.map fun x => x.w)) h.mom w first (l.map fun x => x.m)
  let b3 := if rule = 2 then b2 else putCodes b2 h.var w first (l.map fun x => x.v)
  let y : Block × Ev × Bool := match copyDesc h with
    | none => (b3, {}, false)
    | some (d, f) => copyBlock b3 c k u d f first (l.map fun x => fdecode (grpFmt g) x.w)
  let live := (l.filter fun x => x.live).length
  { b := y.1, updated := z.updated + live, nonfin := z.nonfin + (256 - live)
    ev := evAdd (l.foldl (fun t x => evAdd t x.ev) z.ev) y.2.1
    digest := (List.range 256).foldl (fun t j => match l[j]? with
      | some x => if x.live then t ^^^ weightTerm x.w (h.master + w * (first + j)) else t
      | none => t) z.digest
    beyond := z.beyond || y.2.2 }

/-- Clamps an update counts once for its copy view. -/
def copyClamps (b : Block) (k : Nat) (h : Shard) (beyond : Bool) : Nat :=
  if dbits h.copy 11 53 = 0 then 0
  else
    let d := readDesc true h.copy
    d.2 + d.1.fmt.isNone.toNat + (if d.1.wem != 0 && tilesIn b k == 0 then 1 else wemClamp d.1) + beyond.toNat

/-! ### Signals and digests -/

/-- The shard's place in its region's list (R399). -/
def shardIndex (b : Block) (x : Ctx) (k a : Nat) : Option Nat :=
  (List.range (shardList b x k).2).find? fun j => shardRec b x k j == a

/-- The digest of the words an update wrote enters the Reckoner's partial, the module's digest, and its shard's where the
region's list names the shard (R381, R399). -/
def addDigest (b : Block) (c k a n : Nat) (d : BitVec 128) : Block :=
  let r := rckOf b k
  let b1 := setRck b k { r with digest := tput r.digest 0 c (tget r.digest 0 c ^^^ d) }
  let x := ctxOf b1 c
  let y := { x with weightDigest := x.weightDigest ^^^ d }
  match shardIndex b1 x k a with
  | none => setCtx b1 c y
  | some j =>
    let o := tget x.shardDigest (0, 0) (k * 2 ^ 32 + j)
    setCtx b1 c { y with shardDigest := tins x.shardDigest (k * 2 ^ 32 + j) (o.1 + n, o.2 ^^^ d) }

/-- Entries of the notify list in use, and the clamp of their number (R370). -/
def notifyCount (h : Shard) : Nat × Nat := if h.notifyN ≤ 4096 then (h.notifyN, 0) else (4096, 1)

def notifyRange (h : Shard) : U64 × Nat := (h.notify, 8 * (notifyCount h).1)

/-- Signal the notify list (R383). -/
def notifyAll (b : Block) (c k : Nat) (u : UnitId) (h : Shard) : Block :=
  let n := (notifyCount h).1
  let l := (List.range n).map fun j =>
    (BitVec.ofNat 64 (leNat (readBytes b c (img b c u) (addrAdd h.notify (8 * j)) 8)), ReqOp.signal 1, (0 : U64))
  if n = 0 then b
  else
    let r := rckOf b k
    startOp (setRck b k { r with signals := satAdd r.signals n }) c u .plain l

/-! ### The update instructions -/

/-- What an update of a span reads: its record and group entry, schedule, seams, masters and moments, and what its copy
needs. -/
def updReads (b : Block) (c k a : Nat) (h : Shard) (g : Grp) (sp : Span) (useVar : Bool) : List (Nat × Nat × Nat) :=
  let w := grpWidth g
  localReads ([(a, 128), (grpBase (ctxOf b c) h.group, 128), (h.seams + 64 * sp.first, 64 * sp.count),
    (h.master + w * sp.first, w * sp.count), (h.mom + w * sp.first, w * sp.count)] ++
      if useVar then [(h.var + w * sp.first, w * sp.count)] else []) ++
    (if g.sched = 0 then [] else readAt b c g.sched 1040) ++
    match copyDesc h with
    | none => []
    | some (d, _) => copyMapReads b c k d ++ if d.sr = 0 then [] else readAt b c d.sr 24

/-- Remote ranges an update reads: its copy's scale record, and the notify list where it signals it (R142). -/
def updFetches (h : Shard) (signals : Bool) : List (U64 × Nat) :=
  (match copyDesc h with
    | none => []
    | some (d, _) => if d.sr = 0 then [] else [(d.sr, 24)]) ++ if signals then [notifyRange h] else []

/-- A refused update takes the seams of its range and nothing else (R379). -/
def updRefuse (b : Block) (c k : Nat) (u : UnitId) (w : U64) (out : U64 → UnitImg → UnitImg) (h : Shard) (sp : Span)
    (clamps : Nat) : Block :=
  let b1 := takeSeams b (h.seams + 64 * sp.first) sp.count
  let b2 := rckHw (addMem64 b1 (grpBase (ctxOf b c) h.group + 0x48) 1) k 0
  retireOut b2 c u w (out 0) fun i => rckCount i (evClamps clamps) 1 0 0

/-- A norm skip takes the seams and counts each element (R378). -/
def updSkip (b : Block) (c k : Nat) (u : UnitId) (w : U64) (out : U64 → UnitImg → UnitImg) (h : Shard) (sp : Span)
    (clamps : Nat) : Block :=
  let b1 := takeSeams b (h.seams + 64 * sp.first) sp.count
  let b2 := rckHw (addMem64 b1 (grpBase (ctxOf b c) h.group + 0x58) sp.count) k 0
  retireOut b2 c u w (out 0) fun i => rckCount i (evClamps clamps) 0 0 sp.count

/-- The scalars of a group are formed once per step: their events count then (R372). -/
def formScalars (b : Block) (c k g : Nat) (s : Scalars) : Block × Ev :=
  let r := rckOf b k
  if r.formed.contains (c * 256 + g) then (b, {})
  else (setRck b k { r with formed := r.formed ++ [c * 256 + g] }, scalarEv s)

/-- An update whose group is live. [DEDUCED, log 42] -/
def updRun (b : Block) (c k rule : Nat) (u : UnitId) (w : U64) (out : U64 → UnitImg → UnitImg) (h : Shard) (g : Grp)
    (sp : Span) (clip : FVal) (clamps : Nat) (signals : Bool) : Block :=
  let x := ctxOf b c
  let eta := (etaOf b c g).1
  let s := scalarsOf g eta
  let f := formScalars (wrNat b (grpBase x h.group + 0x38) 8 (convertTo .f64 .nearest false 0 0 eta.1 false).1) c k h.group s
  let z := (List.range (sp.count / 256)).foldl (fun y j => updBlock rule h g s clip c k u y (sp.first + 256 * j))
    { b := f.1 }
  let b1 := addMem64 (addMem64 z.b (grpBase x h.group + 0x40) z.updated) (grpBase x h.group + 0x50) z.nonfin
  let b2 := rckHw (addDigest b1 c k sp.rec_ z.updated z.digest) k z.updated
  let b3 := if signals then notifyAll b2 c k u h else b2
  retireOut b3 c u w (out (BitVec.ofNat 64 z.updated)) fun i =>
    rckCount i (evAdd z.ev (evAdd f.2 (evClamps
      (clamps + copyClamps b k h z.beyond + if signals then (notifyCount h).2 else 0)))) 0 z.nonfin 0

/-- UPD.ADAM, UPD.ADAMW and UPD.SGDM on a span of a record (R368 to R372, R378, R379). `signals` says that the instruction
signals the shard's notify list: it does once it has written the last element (R383). [DEDUCED, log 42] -/
def updAt (b : Block) (c k rule : Nat) (u : UnitId) (w : U64) (out : U64 → UnitImg → UnitImg) (a : Nat) (i : UnitImg)
    (span : Nat → Span) (clip : FVal) (ends : Span → Nat → Bool) : Block :=
  match lowBad b c k a 128 with
  | some y => takeExc b c u 3 (ownAddr b y) w
  | none =>
    let h := readShard b a
    let g := readGrp b (ctxOf b c) h.group
    let sp := span h.n
    let signals := ends sp h.n
    let fetch := updFetches h signals
    if fetch.any fun r => missing b c i r.1 r.2 then fetchRemote b c u w fetch
    else match leastAddr (shardBad b c k i h (grpWidth g) (rule != 2) ++
        if signals then (badByte b c h.notify (notifyRange h).2).toList else []) with
      | some y => takeExc b c u 3 y w
      | none => onReads b k (updReads b c k a h g sp (rule != 2)) fun b1 =>
        if !grpValid g then updRefuse b1 c k u w out h sp (sp.clamps + 1)
        else if grpFrozen g then updRefuse b1 c k u w out h sp sp.clamps
        else if grpNorm g && tget (rckOf b k).skip false c then updSkip b1 c k u w out h sp sp.clamps
        else updRun b1 c k rule u w out h g sp clip (sp.clamps + g.gclamp) signals

/-- [DEDUCED, log 42] -/
def updEff (op rule : Nat) (u : UnitId) (o : Ops) (b : Block) : Block :=
  let w := mkWord 0x20 op o
  issue b u w (accepts .reckoner u && legalUpd o) fun c i =>
    updAt b c (regionOf u) rule u w (fun x j => setS j (fd o) x) (faLocal (recOp b (sreg i (fa o))).1) i (spanOf b i o)
      (fval i (fe o)) fun sp n => sp.first + sp.count == n && sp.count != 0

def updAdamEff (u : UnitId) (o : Ops) (b : Block) : Block := updEff 0x01 0 u o b
def updAdamwEff (u : UnitId) (o : Ops) (b : Block) : Block := updEff 0x02 1 u o b
def updSgdmEff (u : UnitId) (o : Ops) (b : Block) : Block := updEff 0x03 2 u o b

/-! ### The global norm (R376, R378) -/

/-- The exact squares of a range added to an empty internal seam (R376). -/
def squares (b : Block) (g : Grp) (h : Shard) (sp : Span) : Seam × Ev :=
  (List.range sp.count).foldl (fun z j =>
    let x := gradOf g (seamOfBytes (rdKeys b (h.seams + 64 * (sp.first + j)) 64))
    let q := fMul x.1 x.1
    (seamAdd q.v z.1, evAdd z.2 (oncePerElem (evAdd x.2 { nangen := q.gen.toNat })))) (seamEmpty, {})

/-- A local 64-byte slot that a Reckoner reads or adds to. -/
def slotReads (b : Block) (c : Nat) (a : U64) : List (Nat × Nat × Nat) := readAt b c a 64

/-- Add a seam into a slot by the rules of RADD kind 6. -/
def mergeSlot (b : Block) (c : Nat) (a : U64) (s : Seam) : Block :=
  match whereIs b c a with
  | .mem key =>
    let b1 := cacheTouch b c (faLocal a) (rdKeys b key 64)
    (writeMem b1 key (faLocal a) (seamBytes (seamMerge s (seamOfBytes (rdKeys b1 key 64))))).1
  | _ => b

/-- UPD.NORM form 0 on a span of a record (R376). [DEDUCED, log 42] -/
def normPartialAt (b : Block) (c k : Nat) (u : UnitId) (w : U64) (out : U64 → UnitImg → UnitImg) (a : Nat) (i : UnitImg)
    (span : Nat → Span) (t : U64 × Nat) : Block :=
  match lowBad b c k a 128 with
  | some y => takeExc b c u 3 (ownAddr b y) w
  | none =>
    let h := readShard b a
    let g := readGrp b (ctxOf b c) h.group
    let sp := span h.n
    let fetch := updFetches h false
    if fetch.any fun r => missing b c i r.1 r.2 then fetchRemote b c u w fetch
    else match leastAddr (shardBad b c k i h (grpWidth g) (grpRule g != 2) ++ (badByte b c t.1 64).toList) with
      | some y => takeExc b c u 3 y w
      | none => onReads b k (localReads [(a, 128), (grpBase (ctxOf b c) h.group, 128),
          (h.seams + 64 * sp.first, 64 * sp.count)] ++ slotReads b c t.1) fun b1 =>
        let live := grpValid g && !grpFrozen g && grpNorm g
        let s := if live then squares b1 g h sp else (seamEmpty, {})
        let b2 := rckHw (if live then mergeSlot b1 c t.1 s.1 else b1) k 0
        retireOut b2 c u w (out (BitVec.ofNat 64 (if live then sp.count else 0))) fun j =>
          rckCount j (evAdd s.2 (evClamps (sp.clamps + t.2 + if live then g.gclamp else 0))) 0 0 0

def updNormPartialEff (u : UnitId) (o : Ops) (b : Block) : Block :=
  let w := mkWord 0x20 0x00 o
  issue b u w (accepts .reckoner u && legalNormPartial o) fun c i =>
    normPartialAt b c (regionOf u) u w (fun x j => setS j (fd o) x) (faLocal (recOp b (sreg i (fa o))).1) i (spanOf b i o)
      (recOp b (sreg i (fe o)))

/-- The clip factor of R378: c, its events, a clamp of L. -/
def clipOf (l eps root : FVal) : V64 × Nat :=
  if fIsNan l || !fLt fvZero l then (v64 fvOne, 1)
  else
    let q := op2 fDiv (v64 l) (op2 fAdd (v64 root) (v64 eps))
    ((fMin fvOne q.1, q.2), 0)

def code64 (x : FVal) : U64 := BitVec.ofNat 64 (convertTo .f64 .nearest false 0 0 x false).1

/-- What a total gives: the norm and the clip factor with their events, a clamp of L, and whether the step skips. The factor
is NaN where the total is not finite: made so from an infinite one, it is a NaN generated (R31, R378). -/
structure NormOut where
  root : FVal
  clip : FVal
  ev : Ev
  clamp : Nat
  bad : Bool

def normOf (l eps : FVal) (s : V64) : NormOut :=
  let root := op1 fSqrt s
  if isFinite s.1 then
    let q := clipOf l eps root.1
    { root := root.1, clip := q.1.1, ev := evAdd root.2 q.1.2, clamp := q.2, bad := false }
  else { root := root.1, clip := .nan, ev := oncePerElem (evAdd root.2 { nangen := (!fIsNan s.1).toNat }), clamp := 0, bad := true }

/-- UPD.NORM form 1 on a slot (R378). -/
def normTotalAt (b : Block) (c k : Nat) (u : UnitId) (w : U64) (out : U64 → U64 → UnitImg → UnitImg) (t : U64 × Nat) : Block :=
  match badByte b c t.1 64 with
  | some y => takeExc b c u 3 y w
  | none => onReads b k (slotReads b c t.1 ++ localReads [(utBase (ctxOf b c), 64)]) fun b1 =>
    let x := ctxOf b1 c
    let n := normOf (rdF64 b1 (utBase x + 0x30)) (rdF64 b1 (utBase x + 0x38))
      (seamRound .f64 (seamOfBytes (readBytes b1 c (img b1 c u) t.1 64)))
    let r := rckOf b1 k
    let b2 := setRck b1 k { r with skip := if n.bad then tins r.skip c true else r.skip }
    let b3 := setCtx b2 c { x with norm := code64 n.root, clip := code64 n.clip, normSkip := x.normSkip || n.bad }
    retireOut (rckHw b3 k 0) c u w (out (code64 n.root) (code64 n.clip)) fun j =>
      rckCount j (evAdd n.ev (evClamps (t.2 + n.clamp))) 0 0 0

def updNormTotalEff (u : UnitId) (o : Ops) (b : Block) : Block :=
  let w := mkWord 0x20 0x00 o
  issue b u w (accepts .reckoner u && legalNormTotal o) fun c i =>
    normTotalAt b c (regionOf u) u w (fun root clip j => setF (setF j (fe o) root) (fd o) clip) (recOp b (sreg i (fa o)))

end Sys2Proof.Machine
end

