-- ==== Sys2Proof/Machine/Builtin.lean ====
section
/-!
DEFINITION. The built-in update program of a Reckoner (R377, R384): what each of its instructions does, and which comes
next. A command on a Reckoner that runs it executes its next instruction where it is of the command's kind, and nothing
otherwise.
-/
namespace Sys2Proof.Machine

/-- The kinds of instruction that the program is made of. -/
inductive RckKind where
  | waitc
  | store
  | add
  | fence
  | puts
  | norm0
  | norm1
  | update (rule : Nat)
deriving DecidableEq, Repr

/-- The shard record of place j of region k's list, and its group. -/
def listed (b : Block) (c k j : Nat) : Nat × Shard × Grp :=
  let x := ctxOf b c
  let a := shardRec b x k j
  let h := readShard b a
  (a, h, readGrp b x h.group)

/-- The kind of the instruction at the program's place. [DESIGN CHOICE, log 99] -/
def rckDue (b : Block) (c k : Nat) : RckKind :=
  match (rckLoop b c k).pos with
  | .top | .counter _ | .waitLocal | .waitHome | .waitTotal => .waitc
  | .partialSum _ => .norm0
  | .localAdd | .absent | .forward | .totalAdd => .add
  | .fence => .fence
  | .report | .send _ | .notify _ => .puts
  | .clear | .copy => .store
  | .total => .norm1
  | .update j => .update (grpRule (listed b c k j).2.2)

/-! ### The order of R384 -/

def listLen (b : Block) (c k : Nat) : Nat := (shardList b (ctxOf b c) k).2

/-- The region of the forwarding Reckoner. -/
def forwarder (b : Block) : Option Nat := (List.range 12).find? fun k => b.geo.regions.getLsbD k

def absentRegions (b : Block) : Nat := ((List.range 12).filter fun k => !b.geo.regions.getLsbD k).length

/-- The updates from record j on; behind the last the next run step begins. -/
def fromUpdate (b : Block) (c k j : Nat) : RckPos := if j < listLen b c k then .update j else .top

/-- The partial sums from record j on: of groups valid, not frozen and in the norm. -/
def fromPartial (b : Block) (c k j : Nat) : RckPos :=
  match (List.range (listLen b c k)).find? fun t =>
      decide (j ≤ t) && (let g := (listed b c k t).2.2; grpValid g && !grpFrozen g && grpNorm g) with
  | some t => .partialSum t
  | none => .localAdd

def fromCounter (b : Block) (c k j : Nat) : RckPos :=
  if j < listLen b c k then .counter j
  else if utNormHome b (ctxOf b c) = 0xFFFF then fromUpdate b c k 0 else fromPartial b c k 0

/-- The total goes to every listed module but the own one. -/
def fromSend (b : Block) (c j : Nat) : RckPos :=
  let x := ctxOf b c
  match (List.range (utNormM b x).1).find? fun t => decide (j ≤ t) && utNormList b x t != b.geo.own.toNat with
  | some t => .send t
  | none => .totalAdd

/-- The place behind the one the program stands at. [DESIGN CHOICE, log 99] -/
def nextPos (b : Block) (c k : Nat) : RckPos :=
  match (rckLoop b c k).pos with
  | .top => fromCounter b c k 0
  | .counter j => fromCounter b c k (j + 1)
  | .partialSum j => fromPartial b c k (j + 1)
  | .localAdd =>
    if forwarder b = some k then (if absentRegions b = 0 then .waitLocal else .absent) else .waitTotal
  | .absent => .waitLocal
  | .waitLocal => .forward
  | .forward => .fence
  | .fence => .report
  | .report => .clear
  | .clear => if utNormHome b (ctxOf b c) = b.geo.own.toNat then .waitHome else .waitTotal
  | .waitHome => .copy
  | .copy => fromSend b c 0
  | .send j => fromSend b c (j + 1)
  | .totalAdd => .waitTotal
  | .waitTotal => .total
  | .total => fromUpdate b c k 0
  | .update j => if (notifyCount (listed b c k j).2.1).1 = 0 then fromUpdate b c k (j + 1) else .notify j
  | .notify j => fromUpdate b c k (j + 1)

def setLoop (b : Block) (c k : Nat) (f : RckLoop → RckLoop) : Block :=
  let r := rckOf b k
  setRck b k { r with loops := tput r.loops {} c (f (rckLoop b c k)) }

/-- Go to a place; back at the top, the next run step begins with the clip factor 1. -/
def goTo (b : Block) (c k : Nat) (p : RckPos) : Block :=
  setLoop b c k fun l =>
    if p = .top then { pos := .top, r := l.r.map (· + 1) } else { l with pos := p }

def goOn (b : Block) (c k : Nat) : Block := goTo b c k (nextPos b c k)

def rckUnit (k : Nat) : UnitId := .reckoner (region12 k)

/-- Count clamps in a Reckoner's OP_CLAMP_CNT for a context. -/
def rckClamp (b : Block) (c k n : Nat) : Block := setImg b c (rckUnit k) (countEv (img b c (rckUnit k)) (evClamps n))

/-! ### The instructions -/

/-- A wait: met, the program goes on. Before a valid table it knows no run step (R384); the home's forwarding Reckoner reads
UT.NORM_M as it waits for the job's sum (R365). -/
def rckWait (b : Block) (c k : Nat) : Block :=
  let x := ctxOf b c
  let l := rckLoop b c k
  match rckAwaits b c k with
  | none => b
  | some w =>
    if l.pos = .top ∧ utValid b x = false then setLoop b c k fun l => { l with r := none }
    else match badByte b c (ownAddr b w.1) 8 with
      | some y => takeExc b c (rckUnit k) 3 y (mkWord 20 0x04 0)
      | none => onReads b k (readAt b c (ownAddr b w.1) 8) fun b1 =>
        if rckWaits b1 c k then b1
        else
          let b2 := if l.pos = .top then setLoop b1 c k fun l => { l with r := some (l.r.getD (runStep b1 x)) } else b1
          goOn (rckClamp b2 c k (if l.pos = .waitHome then (utNormM b x).2 else 0)) c k

/-- Local address of a two-entry field of the norm block in the run step's parity. -/
def parityField (b : Block) (c k o : Nat) : U64 :=
  ownAddr b (normField b (ctxOf b c) (o + 64 * ((rckLoop b c k).r.getD 0 % 2)))

/-- The same field of another module's norm block. -/
def peerField (b : Block) (c k m o : Nat) : U64 :=
  BitVec.ofNat 64 (m * 2 ^ 49 + normField b (ctxOf b c) (o + 64 * ((rckLoop b c k).r.getD 0 % 2)) % 2 ^ 49)

def peerCounter (b : Block) (c m o : Nat) : U64 := BitVec.ofNat 64 (m * 2 ^ 49 + normField b (ctxOf b c) o % 2 ^ 49)

/-- `eff` on the bytes of a seam slot of this module, where it is mapped and its words can be read. -/
def onSlot (b : Block) (c k : Nat) (a : U64) (w : U64) (eff : Block → List Byte → Block) : Block :=
  match badByte b c a 64 with
  | some y => takeExc b c (rckUnit k) 3 y w
  | none => onReads b k (readAt b c a 64) fun b1 => eff b1 (readBytes b1 c (img b1 c (rckUnit k)) a 64)

/-- Adds to the norm block's counters and the sum's way to the home (R377). -/
def rckAdd (b : Block) (c k : Nat) : Block :=
  let x := ctxOf b c
  let u := rckUnit k
  let w := mkWord 20 0x02 0
  let counter (o n : Nat) : Block :=
    match badByte b c (ownAddr b (normField b x o)) 8 with
    | some y => takeExc b c u 3 y w
    | none => goOn (addCounter b c (ownAddr b (normField b x o)) (BitVec.ofNat 64 n)) c k
  match (rckLoop b c k).pos with
  | .localAdd => counter 0x180 1
  | .absent => counter 0x180 (absentRegions b)
  | .totalAdd => counter 0x190 1
  | .forward =>
    if portFull (img b c u) then b
    else onSlot b c k (parityField b c k 0) w fun b1 s =>
      goOn (startOp b1 c u .plain (raddPieces 6 0 0 (peerField b1 c k (utNormHome b1 x) 0x80) 1 s)) c k
  | _ => b

/-- FENCE of scope 1 on the home: refused, the sum is not reported (R377). -/
def rckFence (b : Block) (c k : Nat) : Block :=
  let u := rckUnit k
  let h := utNormHome b (ctxOf b c)
  if scopeOpen b c u fun m => m.toNat == h then b
  else
    let i := img b c u
    let b1 := setImg b c u { i with refus := tdel i.refus h }
    goTo b1 c k (if tget i.refus 0 h = 0 then .report else .clear)

/-- The signals: the report to the home, the total to a listed module, a shard's notify list (R377, R383). A list in another
module's memory is fetched first (R142). -/
def rckPuts (b : Block) (c k : Nat) : Block :=
  let x := ctxOf b c
  let u := rckUnit k
  let w := mkWord 20 0x03 0
  if portFull (img b c u) then b
  else match (rckLoop b c k).pos with
  | .report => goOn (startOp b c u .plain [(peerCounter b c (utNormHome b x) 0x188, .signal 1, 0)]) c k
  | .send j =>
    let m := utNormList b x j
    onSlot b c k (parityField b c k 0x100) w fun b1 s =>
      goOn (startOp b1 c u (.signal (peerCounter b1 c m 0x190) 1) (putPieces (peerField b1 c k m 0x100) s)) c k
  | .notify j =>
    let h := (listed b c k j).2.1
    let r := notifyRange h
    if missing b c (img b c u) r.1 r.2 then fetchRemote b c u w [r]
    else match badByte b c r.1 r.2 with
      | some y => takeExc b c u 3 y w
      | none => onReads b k (readAt b c r.1 r.2) fun b1 =>
        let b2 := notifyAll b1 c k u h
        goOn (setImg b2 c u (accessed (countEv (img b2 c u) (evClamps (notifyCount h).2)))) c k
  | _ => b

/-- Slots emptied, and the total delivered to the own norm block (R377). -/
def rckStore (b : Block) (c k : Nat) : Block :=
  let w := mkWord 2 0x01 0
  let zero (z : Block) (a : U64) : Block := storeOwn z c a (List.replicate 64 0)
  match (rckLoop b c k).pos with
  | .clear => onSlot b c k (parityField b c k 0) w fun b1 _ => goOn (zero b1 (parityField b1 c k 0)) c k
  | .copy => onSlot b c k (parityField b c k 0x80) w fun b1 s =>
      onSlot b1 c k (parityField b1 c k 0x100) w fun b2 _ =>
        goOn (zero (storeOwn b2 c (parityField b2 c k 0x100) s) (parityField b2 c k 0x80)) c k
  | _ => b

/-- The whole of a record's shard. -/
def wholeSpan (a n : Nat) : Span := { rec_ := a, first := 0, count := n, clamps := 0 }

/-- The program goes on behind an update instruction that has retired; one that raised an exception, that met a fault or that
waits for a remote record leaves it where it is. -/
def behind (b : Block) (c k : Nat) : Block :=
  let out := match (img b c (rckUnit k)).run with
    | .running => true
    | .waiting .drain _ => true
    | _ => false
  if out && b.running == some c && (rckOf b k).fault == 0 then goOn b c k else b

/-- The program's next instruction, where it is of the kind. A rule field of code 3 counts one clamp (R366, R384). -/
def rckOwn (kind : RckKind) (c k : Nat) (b : Block) : Block :=
  let u := rckUnit k
  let i := img b c u
  if rckDue b c k ≠ kind then b
  else match kind, (rckLoop b c k).pos with
  | .waitc, _ => rckWait b c k
  | .add, _ => rckAdd b c k
  | .fence, _ => rckFence b c k
  | .puts, _ => rckPuts b c k
  | .store, _ => rckStore b c k
  | .norm0, .partialSum j =>
    let a := (listed b c k j).1
    behind (normPartialAt b c k u (mkWord 0x20 0x00 0) (fun _ x => x) a i (wholeSpan a) (parityField b c k 0, 0)) c k
  | .norm1, _ =>
    let b1 := normTotalAt b c k u (mkWord 0x20 0x00 0) (fun _ _ x => x) (parityField b c k 0x100, 0)
    behind (setLoop b1 c k fun l => { l with clip := (ctxOf b1 c).clip }) c k
  | .update rule, .update j =>
    let l := listed b c k j
    let b1 := updAt b c k rule u (mkWord 0x20 (rule + 1) 0) (fun _ x => x) l.1 i (wholeSpan l.1)
      (fdecode .f64 (rckLoop b c k).clip.toNat) fun _ _ => false
    let b2 := behind b1 c k
    if rckLoop b2 c k = rckLoop b c k then b2 else rckClamp b2 c k (decide (l.2.2.flags / 64 % 4 = 3)).toNat
  | _, _ => b

/-- A command on a unit: on a Reckoner that runs the built-in program, that program's next instruction. -/
def orBuiltin (kind : RckKind) (u : UnitId) (eff : Block → Block) (b : Block) : Block :=
  match u, builtCtx b u with
  | .reckoner k, some c => rckOwn kind c k.val b
  | _, _ => eff b

end Sys2Proof.Machine
end

