-- ==== Sys2Proof/Machine/Collective.lean ====
section
/-!
DEFINITION. The built-in program of a region fabric engine: the collective kinds of R334 to R346. A command advances the
front request of its kind as far as its waits allow.
-/
namespace Sys2Proof.Machine

def engUnit (k : Nat) : UnitId := .engine (region12 k)

/-- The fabric address of a local address on a module. -/
def onModule (m l : Nat) : U64 := BitVec.ofNat 64 (m * 2 ^ 49 + l % 2 ^ 49)

def setCoord (x : U32) (axis j : Nat) : U32 :=
  BitVec.ofNat 32 (x.toNat - coordOf x axis * 256 ^ axis + j * 256 ^ axis)

/-- Member j along an axis: the module at that coordinate (R334). -/
def memberOf (b : Block) (axis j : Nat) : Option Nat :=
  let want := setCoord b.geo.coord axis j
  if want = b.geo.coord then some b.geo.own.toNat
  else (b.fab.route.find? fun e => e.2 == want).map Prod.fst

def axisExtent (b : Block) (axis : Nat) : Nat := coordOf b.geo.extent axis
def ownCoord (b : Block) (axis : Nat) : Nat := coordOf b.geo.coord axis

def argNat (r : CollReq) (j : Nat) : Nat := (r.args.getD j 0).toNat

/-- The front request of an engine whose built-in program can run it, if it has the kind asked for. -/
def frontColl (b : Block) (k : Nat) (kind : Nat → Bool) : Option (Nat × UnitImg × CollReq) :=
  match b.running with
  | none => none
  | some c =>
    let i := img b c (engUnit k)
    if mayBegin b c && hwRuns b (engUnit k) && (i.builtin || i.ret.isSome) then
      match i.colls with
      | r :: _ => if kind r.kind then some (c, i, r) else none
      | [] => none
    else none

def setFront (b : Block) (c k : Nat) (r : CollReq) : Block :=
  let i := img b c (engUnit k)
  setImg b c (engUnit k) { i with colls := r :: i.colls.drop 1 }

/-- What the engine's operations still meet is no later request's (R335). -/
def disown (b : Block) (c k : Nat) : Block :=
  let i := img b c (engUnit k)
  setImg b c (engUnit k) { i with refus := [], ops := i.ops.map fun o => { o with ended := true } }

/-- The request ends: the engine adds 1, or 2^32 + 1 after a failure, to its counter (R335). -/
def endColl (b : Block) (c k : Nat) (r : CollReq) : Block :=
  let i := img b c (engUnit k)
  let b1 := setImg b c (engUnit k) { i with colls := i.colls.drop 1 }
  disown (if r.counter = 0 then b1
    else startOp b1 c (engUnit k) .plain [(r.counter, .signal (if r.failed then 0x100000001 else 1), 0)]) c k

/-- The engine's built-in program reads bytes of the context's memory: a word that the memory code cannot correct is
delivered nowhere, and the fault it raises halts the context (R104, R268). -/
def collRead (b : Block) (c k : Nat) (a : U64) (n : Nat) (f : Block → List Byte → Block) : Block :=
  match meetRead b c (engUnit k) a n with
  | .ok b1 => f b1 (readBytes b1 c (img b1 c (engUnit k)) a n)
  | .refused b1 => b1
  | .tileFault b1 => b1

/-- [DEDUCED, log 43] -/
def failColl (b : Block) (c k : Nat) (r : CollReq) : Block := endColl b c k { r with failed := true }

def engClamp (b : Block) (c k n : Nat) : Block := setImg b c (engUnit k) (countEv (img b c (engUnit k)) (evClamps n))

/-- No operation of the engine is open; the refusals met since the last fence. -/
def engFence (b : Block) (c k : Nat) : Option Nat :=
  let i := img b c (engUnit k)
  if i.ops.isEmpty && !(b.fab.reqs.any fun e => e.2.unit = sysUnit (engUnit k) && e.2.ctx = c) then
    some (sumOf' (i.refus.map Prod.snd))
  else none
where
  sumOf' (l : List Nat) : Nat := l.foldl (· + ·) 0

/-- Byte counts above 2^32 take 2^32 (R335). -/
def collBytes (x : Nat) : Nat × Nat := if x ≤ 2 ^ 32 then (x, 0) else (2 ^ 32, 1)

/-- A local argument address with the own module number. -/
def argLocal (b : Block) (r : CollReq) (j : Nat) : U64 := ownAddr b (argNat r j)

/-- Send the source to every other member from member `idx` on, while the port has room (R337, R339). -/
def sendAll (b0 : Block) (c k axis : Nat) (data : List Byte) (dst ctr : Nat) (own : Nat) : Nat → CollReq → Block → Block
  | 0, r, b => setFront b c k { r with stage := 2, idx := 0 }
  | n + 1, r, b =>
    if r.idx = own then sendAll b0 c k axis data dst ctr own n { r with idx := r.idx + 1 } b
    else if portFull (img b c (engUnit k)) then setFront b c k r
    else match memberOf b0 axis r.idx with
      | none => sendAll b0 c k axis data dst ctr own n { r with idx := r.idx + 1, failed := true } b
      | some m =>
        sendAll b0 c k axis data dst ctr own n { r with idx := r.idx + 1 }
          (startOp b c (engUnit k) (.signal (onModule m ctr) 1) (putPieces (onModule m dst) data))

/-- An exception of the engine's built-in program is a context fault (R162). -/
def engExc (b : Block) (c k : Nat) (a : U64) : Block := takeExc b c (engUnit k) 3 a 0

/-- Start and sending of all-gather and broadcast: stage 0 checks and clamps, stage 1 sends; the own copy of an all-gather
is made once, when sending begins. -/
def gatherSend (b : Block) (c k : Nat) (r : CollReq) (gather : Bool) : Block :=
  let axis := argNat r 3 % 4
  let n := collBytes (argNat r 2)
  let src := argLocal b r 0
  let own := ownCoord b axis
  let dst := argNat r 1 + (if gather then own * n.1 else 0)
  let copies := gather && r.stage == 0
  if r.stage = 0 && argNat r 3 / 4 != 0 then failColl b c k r
  else match badByte b c src n.1, (if copies then badByte b c (ownAddr b dst) n.1 else none) with
    | some a, _ => engExc b c k a
    | none, some a => engExc b c k a
    | none, none =>
      collRead b c k src n.1 fun b0 data =>
        let b1 := if r.stage = 0 then engClamp b0 c k n.2 else b0
        let r1 := if r.stage = 0 then { r with stage := 1, idx := 0 } else r
        let b2 := sendAll b c k axis data dst (argNat r 4) own (axisExtent b axis - r1.idx) r1 b1
        if copies then storeOwn b2 c (ownAddr b dst) data else b2

/-- Waits after the sends: the fence, then the arrival counter (R337, R339). -/
def gatherWait (b : Block) (c k : Nat) (r : CollReq) (gather : Bool) : Block :=
  match engFence b c k with
  | none => b
  | some n =>
    let i := img b c (engUnit k)
    let r1 := { r with failed := r.failed || n != 0 }
    let b1 := setFront (setImg b c (engUnit k) { i with refus := [] }) c k r1
    if gather then
      let a := argLocal b r 4
      match badByte b c a 8 with
      | some x => engExc b c k x
      | none => collRead b1 c k a 8 fun b2 x => if argNat r 5 ≤ leNat x then endColl b2 c k r1 else b2
    else endColl b1 c k r1

/-- ALL_GATHER (R337) on engine k. -/
def allGather (k : Nat) (b : Block) : Block :=
  match frontColl b k (· == 1) with
  | none => b
  | some (c, _, r) => if r.stage < 2 then gatherSend b c k r true else gatherWait b c k r true

/-- BROADCAST (R339): only the root issues it. -/
def broadcast (k : Nat) (b : Block) : Block :=
  match frontColl b k (· == 3) with
  | none => b
  | some (c, _, r) => if r.stage < 2 then gatherSend b c k r false else gatherWait b c k r false

/-! ### Reduce-scatter (R338) -/

def rsFmt (r : CollReq) : Nat := argNat r 3 / 16 % 16
def rsScale (r : CollReq) : Int := (argNat r 3 / 256 % 256 : Nat) - 127

/-- Refusals that name one module. -/
def refusOf (i : UnitImg) (m : Nat) : Nat := tget i.refus 0 m

/-- Advance the loop over members: stage 1 adds run idx, stage 2 fences it and signals, stage 3 is the last fence.
[DEDUCED, log 43] -/
def rsStep (c k : Nat) : Nat → Block → CollReq → Block
  | 0, b, r => setFront b c k r
  | f + 1, b, r =>
    let axis := argNat r 3 % 4
    let e := axisExtent b axis
    let i := img b c (engUnit k)
    let n := argNat r 2
    if r.stage = 1 then
      if r.idx ≥ e then rsStep c k f b { r with stage := 3 }
      else match memberOf b axis r.idx with
        | none => rsStep c k f b { r with idx := r.idx + 1, failed := true }
        | some m =>
          if portFull i then setFront b c k r
          else
            -- run idx begins at a bit that a run of 4-bit elements may place within a byte
            let w := raddSrcBits 5 (rsFmt r)
            let first := r.idx * n * w
            let a := addrAdd (argLocal b r 0) (first / 8)
            match meetRead b c (engUnit k) a ((first % 8 + n * w + 7) / 8) with
            | .ok b1 =>
              let x := raddSlice w (first % 8 / w) n
                (readBytes b1 c (img b1 c (engUnit k)) a ((first % 8 + n * w + 7) / 8))
              rsStep c k f (startOp b1 c (engUnit k) .plain
                (raddPieces 5 (rsFmt r) (rsScale r) (onModule m (argNat r 1)) n x)) { r with stage := 2 }
            | .refused b1 => setFront b1 c k r
            | .tileFault b1 => setFront b1 c k r
    else if r.stage = 2 then
      let m := (memberOf b axis r.idx).getD 0
      if scopeOpen b c (engUnit k) fun y => y.toNat == m then setFront b c k r
      else if refusOf i m ≠ 0 then
        rsStep c k f (setImg b c (engUnit k) { i with refus := tdel i.refus m })
          { r with stage := 1, idx := r.idx + 1, failed := true }
      else
        rsStep c k f (startOp b c (engUnit k) (.signal (onModule m (argNat r 4)) 1) [])
          { r with stage := 1, idx := r.idx + 1 }
    else match engFence b c k with
      | none => setFront b c k r
      | some q => endColl b c k { r with failed := r.failed || q != 0 }

/-- REDUCE_SCATTER on engine k. -/
def reduceScatter (k : Nat) (b : Block) : Block :=
  match frontColl b k (· == 2) with
  | none => b
  | some (c, i, r) =>
    let axis := argNat r 3 % 4
    let e := axisExtent b axis
    if r.stage = 0 then
      if argNat r 3 / 4 % 4 ≠ 0 ∨ argNat r 3 / 2 ^ 16 ≠ 0 ∨ rsFmt r > 6 then failColl b c k r
      else match badByte b c (argLocal b r 0) ((e * argNat r 2 * raddSrcBits 5 (rsFmt r) + 7) / 8) with
        | some a => engExc b c k a
        | none => rsStep c k (3 * e + 4) (setImg b c (engUnit k) { i with refus := [] }) { r with stage := 1 }
    else rsStep c k (3 * e + 4) b r

/-! ### PERMUTE (R340 to R345) -/

def permS (r : CollReq) : Nat := argNat r 2 % 2 ^ 32
def permP (r : CollReq) : Nat := argNat r 2 / 2 ^ 32
def permMode (r : CollReq) : Nat := argNat r 3 / 2 ^ 8 % 4

/-- The cycle of σ from a leader on: leader, σ(leader), … (R342). -/
def cycleFrom (sig : List Nat) (lead : Nat) : Nat → Nat → List Nat
  | 0, _ => []
  | n + 1, j => let i := sig.getD j 0; if i = lead then [j] else j :: cycleFrom sig lead n i

def cycleOf (sig : List Nat) (lead : Nat) : List Nat := cycleFrom sig lead sig.length lead

/-- The leaders homed on a member, ascending; fixed points are skipped. -/
def leadersOn (sig : List Nat) (p me : Nat) : List Nat :=
  (List.range sig.length).filter fun g =>
    g / p == me && sig.getD g 0 != g && (cycleOf sig g).all fun j => decide (g ≤ j)

def isPerm (sig : List Nat) : Bool := (List.range sig.length).all fun g => (sig.filter (· == g)).length == 1

/-- Σ (j + 1) × σ(j) modulo 2^64 (R341). -/
def permSum (sig : List Nat) : Nat := ((List.range sig.length).foldl (fun t j => t + (j + 1) * sig.getD j 0) 0) % 2 ^ 64

/-- Moves of a cycle from its position t on (R342); n is the cycles completed before it. -/
def fwdFrom (cy : List Nat) (lead n t : Nat) : List PermAct :=
  ((List.range (cy.length - 1)).drop t).flatMap (fun s =>
    [.record 2 lead (cy.getD s 0) (cy.getD (s + 1) 0) n, .copy (some (cy.getD s 0)) (some (cy.getD (s + 1) 0))]) ++
  [.record 3 lead (cy.getLastD lead) lead n, .copy (some (cy.getLastD lead)) none] ++ [.close 0 (n + 1)]

def fwdCycle (sig : List Nat) (lead n : Nat) : List PermAct :=
  [.record 1 lead lead lead n, .copy none (some lead)] ++ fwdFrom (cycleOf sig lead) lead n 0

/-- Reverse moves from position t down to the leader, which the save area fills; `n` is PR.CYCLES afterwards (R345). -/
def backFrom (cy : List Nat) (lead now n t : Nat) : List PermAct :=
  ((List.range t).reverse.flatMap fun s =>
    [PermAct.record 2 lead (cy.getD (s + 1) 0) (cy.getD s 0) now,
     .copy (some (cy.getD (s + 1) 0)) (some (cy.getD s 0))]) ++
  [.record 3 lead lead lead now, .copy (some lead) none] ++ [.close 0 n]

/-- Undo completed cycle number n (counting from 0). -/
def undoCycle (sig : List Nat) (lead n : Nat) : List PermAct :=
  let cy := cycleOf sig lead
  let z := cy.getLastD lead
  [.record 1 lead z z (n + 1), .copy none (some z)] ++ backFrom cy lead (n + 1) n (cy.length - 1)

/-- What a progress record holds (R343). -/
structure PRec where
  st : Nat
  back : Bool
  lead : Nat
  dst : Nat
  src : Nat
  moves : Nat
  sum : Nat
  cycles : Nat

def readPRec (x : List Byte) : Option PRec :=
  if le32' x 0 = 0x4D524550 then
    some { st := (x.getD 4 0).toNat, back := (x.getD 5 0).getLsbD 0, lead := le32' x 8, dst := le32' x 0xC,
           src := le32' x 0x10, moves := le64' x 0x18, sum := le64' x 0x20, cycles := le64' x 0x28 }
  else none
where
  le32' (x : List Byte) (o : Nat) : Nat := leNat ((x.drop o).take 4)
  le64' (x : List Byte) (o : Nat) : Nat := leNat ((x.drop o).take 8)

/-- The move a record names, to be repeated. -/
def namedMove (p : PRec) : List PermAct :=
  if p.st = 1 then [.copy none (some p.src)]
  else if p.st = 2 then [.copy (some p.dst) (some p.src)]
  else if p.st = 3 then [.copy (some p.dst) none]
  else []

def allFwd (sig : List Nat) (ls : List Nat) (n : Nat) : List PermAct :=
  ((List.range ls.length).drop n).flatMap fun j => fwdCycle sig (ls.getD j 0) j

def allBack (sig : List Nat) (ls : List Nat) (n : Nat) : List PermAct :=
  (List.range n).reverse.flatMap fun j => undoCycle sig (ls.getD j 0) j

/-- A rollback's record names a move of a cycle that had been completed: the cycle stands among the completed ones. -/
def undoing (ls : List Nat) (p : PRec) : Bool := p.back && decide (ls.findIdx (· == p.lead) < p.cycles)

/-- Cycles completed before the one that a record names. -/
def cyclesBefore (ls : List Nat) (p : PRec) : Nat := if undoing ls p then p.cycles - 1 else p.cycles

/-- The actions mode 1 still has to do (R345): the move the record names, then the cycles from there on. A record of a
rollback names a reverse move: after it the cycle goes forward again from where it then stands. [DEDUCED, log 43] -/
def resumeActs (sig : List Nat) (ls : List Nat) (p : PRec) : List PermAct :=
  if p.st = 0 ∨ p.st > 3 then allFwd sig ls p.cycles
  else
    let cy := cycleOf sig p.lead
    let n := cyclesBefore ls p
    let rest :=
      if p.st = 1 then (if undoing ls p then [PermAct.close 0 p.cycles] else fwdFrom cy p.lead n 0)
      else if p.st = 2 then fwdFrom cy p.lead n (if p.back then cy.findIdx (· == p.src) else cy.findIdx (· == p.dst) + 1)
      else if p.back then fwdCycle sig p.lead n
      else [.close 0 (p.cycles + 1)]
    namedMove p ++ rest ++ allFwd sig ls (n + 1)

/-- The actions mode 2 has to do (R345): of a forward record, or of an interrupted rollback. -/
def backActs (sig : List Nat) (ls : List Nat) (p : PRec) : List PermAct :=
  if p.st = 0 ∨ p.st > 3 then allBack sig ls p.cycles
  else
    let cy := cycleOf sig p.lead
    let n := cyclesBefore ls p
    let rest :=
      if p.st = 3 && p.back then [PermAct.close 0 n]
      else if p.st = 1 && p.back then backFrom cy p.lead p.cycles n (cy.length - 1)
      else if p.st = 2 && p.back then backFrom cy p.lead p.cycles n (cy.findIdx (· == p.src))
      else if p.st = 1 then backFrom cy p.lead p.cycles n 0
      else if p.st = 2 then backFrom cy p.lead p.cycles n (cy.findIdx (· == p.dst) + 1)
      else backFrom cy p.lead p.cycles n (cy.length - 1)
    namedMove p ++ rest ++ allBack sig ls n

/-- The record's 64 bytes. -/
def precBytes (r : CollReq) (st : Nat) : List Byte :=
  leBytes 4 0x4D524550 ++ leBytes 1 st ++ leBytes 1 r.back.toNat ++ leBytes 2 0 ++ leBytes 4 r.lead ++ leBytes 4 r.dst ++
    leBytes 4 r.src ++ leBytes 4 0 ++ leBytes 8 r.moves ++ leBytes 8 r.sum.toNat ++ leBytes 8 r.cycles ++ leBytes 16 0

/-- Where a unit, or the save area, lies: fabric address. -/
def unitAddr (b : Block) (r : CollReq) (axis : Nat) (g : Option Nat) : Option U64 :=
  match g with
  | none => some (ownAddr b (argNat r 4 + 64))
  | some g => (memberOf b axis (g / permP r)).map fun m => onModule m (argNat r 1 + g % permP r * permS r)

/-- The staging portion of the engine's region (R99). -/
def stagingBase (k : Nat) : Nat := (k + 1) * 2 ^ 36 - 0x400000

/-- Work through the actions until one waits: stage 1 begins an action or a portion, 2 awaits its GET, 3 its PUT.
[DEDUCED, log 43] -/
def permStep (c k : Nat) : Nat → Block → CollReq → Block
  | 0, b, r => setFront b c k r
  | f + 1, b, r =>
    let axis := argNat r 3 % 4
    match r.todo with
    | [] => endColl b c k r
    | .record st lead dst src cycles :: t =>
      let r1 := { r with todo := t, lead := lead, dst := dst, src := src, moves := r.moves + 1, cycles := cycles }
      permStep c k f (storeOwn b c (argLocal b r 4) (precBytes r1 st)) r1
    | .close st cycles :: t =>
      let r1 := { r with todo := t, cycles := cycles }
      permStep c k f (storeOwn b c (argLocal b r 4) (precBytes r1 st)) r1
    | .copy dst src :: t =>
      let n := min 65536 (permS r - r.idx)
      match unitAddr b r axis dst, unitAddr b r axis src with
      | some ad, some as =>
        if r.stage = 1 then
          permStep c k f (startOp b c (engUnit k) .stage
            ((cuts (addrAdd as r.idx) n).map fun p =>
              (p.1, .get p.2, BitVec.ofNat 64 (stagingBase k) + (p.1 - addrAdd as r.idx)))) { r with stage := 2 }
        else match engFence b c k with
          | none => setFront b c k r
          | some q =>
            if q ≠ 0 then failColl b c k r
            else if r.stage = 2 then
              let d := readOwn b (stagingBase k) n
              match d.1.2 with
              | some e => setFront (memFault d.1.1 e) c k r
              | none =>
                permStep c k f (startOp d.1.1 c (engUnit k) .plain (putPieces (addrAdd ad r.idx) d.2)) { r with stage := 3 }
            else if r.idx + n < permS r then permStep c k f b { r with stage := 1, idx := r.idx + n }
            else permStep c k f b { r with stage := 1, idx := 0, todo := t }
      | _, _ => failColl b c k r

/-- PERMUTE on engine k. -/
def permute (k : Nat) (b : Block) : Block :=
  match frontColl b k (· == 4) with
  | none => b
  | some (c, i, r) =>
    let fuel (n : Nat) : Nat := 6 * n * (permS r / 65536 + 2) + 8
    if r.stage ≠ 0 then permStep c k (fuel r.todo.length) b r
    else
      let axis := argNat r 3 % 4
      let s := permS r
      let u := permP r * axisExtent b axis
      if argNat r 3 / 4 % 64 ≠ 0 ∨ argNat r 3 / 2 ^ 10 ≠ 0 ∨ permMode r = 3 ∨ s % 2048 ≠ 0 ∨ s < 2048 ∨
          4 * 2 ^ 20 < s ∨ permP r = 0 ∨ argNat r 4 % 64 ≠ 0 then failColl b c k r
      else match badByte b c (argLocal b r 0) (4 * u), badByte b c (argLocal b r 4) (64 + s) with
        | some a, _ => engExc b c k a
        | none, some a => engExc b c k a
        | none, none =>
          collRead b c k (argLocal b r 0) (4 * u) fun b1 raw =>
          collRead b1 c k (argLocal b r 4) 64 fun b2 old =>
          let sig := (List.range u).map fun j => leNat ((raw.drop (4 * j)).take 4)
          let pr := readPRec old
          let ls := leadersOn sig (permP r) (ownCoord b axis)
          if !isPerm sig then failColl b2 c k r
          else
            let start (p : Option PRec) (acts : List PermAct) (last : Nat) (back : Bool) : Block :=
              let q : PRec := p.getD ⟨0, false, 0, 0, 0, 0, 0, 0⟩
              let todo := acts ++ [.close last (if back then 0 else ls.length)]
              let r1 := { r with
                stage := 1, todo := todo, lead := q.lead, dst := q.dst, src := q.src, moves := q.moves, cycles := q.cycles
                sum := BitVec.ofNat 64 (permSum sig), back := back }
              permStep c k (fuel todo.length) (setImg b2 c (engUnit k) { i with refus := [] }) r1
            if permMode r = 0 then start none (allFwd sig ls 0) 4 false
            else match pr with
              | none => if permMode r = 1 then start none (allFwd sig ls 0) 4 false else start none [] 5 true
              | some p =>
                if p.st = 4 ∧ permMode r = 1 ∨ p.st = 5 then endColl b2 c k r
                else if p.sum ≠ permSum sig then failColl b2 c k r
                else if permMode r = 1 then start (some p) (resumeActs sig ls p) 4 false
                else start (some p) (backActs sig ls p) 5 true

/-! ### Engine programs, undefined kinds, timeouts -/

/-- Kind 0x00 (R336): the call, and, once the program has returned to its return address, the signal. s6 holds the
address of the engine's copy of the request block. The return address is not given: a free word.
[DEDUCED, log 43; DESIGN CHOICE, log 106] -/
def collEngineProgram (k : Nat) (b : Block) : Block :=
  match frontColl b k (· == 0) with
  | none => b
  | some (c, i, r) =>
    let u := engUnit k
    if r.stage = 0 then
      let off := argNat r 0
      let x := ctxOf b c
      let pc := BitVec.ofNat 64 (x.image.toNat + off)
      if off % 8 ≠ 0 ∨ x.imgSize ≤ off then takeExc b c u 2 pc 0
      else
        let w31 := freshWord b
        let copy := callCopy k
        let put (z : UnitImg) (t : Nat × U64) : UnitImg := setS z (BitVec.ofNat 5 t.1) t.2
        let j := [(1, r.args.getD 1 0), (2, r.args.getD 2 0), (3, r.args.getD 3 0), (4, r.args.getD 4 0),
          (5, r.args.getD 5 0), (6, ownAddr b copy), (31, w31.1)].foldl put i
        let b1 := (writeMem w31.2 copy copy r.block).1
        setImg b1 c u { j with
          pc := pc, run := .running, builtin := false, ret := some w31.1, colls := { r with stage := 1 } :: i.colls.drop 1 }
    else if i.run = .running ∧ i.ret = some i.pc then
      let b1 := setImg b c u { i with run := .running, builtin := true, ret := none }
      endColl b1 c k { r with failed := sreg i 1 != 0 }
    else b

/-- A kind R199 does not define completes at once, signals and counts one clamp. -/
def collUndefinedKind (k : Nat) (b : Block) : Block :=
  match frontColl b k (fun n => decide (n > 4)) with
  | none => b
  | some (c, _, r) => endColl (engClamp b c k 1) c k r

/-- A wait of the engine times out (R335): the started request ends as a failure, and what it left open is no later
request's. -/
def collWaitTimeout (k : Nat) (b : Block) : Block :=
  match frontColl b k (fun n => decide (1 ≤ n) && decide (n ≤ 4)) with
  | none => b
  | some (c, _, r) => if r.stage = 0 then b else failColl b c k r

end Sys2Proof.Machine
end

