-- ==== Sys2Proof/Machine/Derrick.lean ====
section
/-!
DEFINITION. The Derrick class on tiles (R200 to R202), the solver operations (R245 to R261), and the copying of a
submitted batch (R200). Time enters as an operand: `elapsed` is the round's age in 25 MHz periods.
-/
namespace Sys2Proof.Machine

def drkUnit (k : Nat) : UnitId := .derrick (region12 k)

/-- Count clamps in a Derrick's OP_CLAMP_CNT for a context. -/
def drkClamp (b : Block) (c k n : Nat) : Block := setImg b c (drkUnit k) (countEv (img b c (drkUnit k)) (evClamps n))

/-! ### DSUB and DPOLL -/

/-- The region operand, clamped (R205). -/
def regionOp (x : U64) : Nat × Nat := if x.toNat ≤ 11 then (x.toNat, 0) else (11, 1)
def dsubLen (x : U64) : Nat × Nat := if x.toNat ≤ 2 ^ 20 then (x.toNat, 0) else (2 ^ 20, 1)

/-- DSUB's counter; a value of 0 names none. [DEDUCED, log 39] -/
def dsubCounter (b : Block) (x : U64) : U64 × Nat := if x = 0 then (0, 0) else counterOp (localOp b x)

def dsubClamps (b : Block) (i : UnitImg) (o : Ops) : Nat :=
  (regionOp (sreg i (fe o))).2 + (dsubLen (sreg i (fb o))).2 +
    (if sreg i (fb o) = 0 then 0 else (localOp b (sreg i (fa o))).2) + (dsubCounter b (sreg i (fc o))).2

def dsubRanges (b : Block) (i : UnitImg) (o : Ops) : List (U64 × Nat) :=
  ((localOp b (sreg i (fa o))).1, (dsubLen (sreg i (fb o))).1) ::
    (if (dsubCounter b (sreg i (fc o))).1 = 0 then [] else [((dsubCounter b (sreg i (fc o))).1, 8)])

/-- [DEDUCED, log 39] -/
def dsubEff (u : UnitId) (o : Ops) (b : Block) : Block :=
  let w := mkWord 0x18 0x00 o
  issue b u w (isTile u && legalDsub o) fun c i =>
    let k := (regionOp (sreg i (fe o))).1
    if !b.geo.derricks.getLsbD k then
      retire b c u (countEv (setS i (fd o) (BitVec.allOnes 64)) (evClamps (1 + (regionOp (sreg i (fe o))).2)))
    else match ((dsubRanges b i o).filterMap fun r => badByte b c r.1 r.2) with
      | x :: t => takeExc b c u 3 (t.foldl (fun m y => if y.toNat < m.toNat then y else m) x) w
      | [] =>
        let d := drkOf b k
        if (stored d).length + d.subs.length ≥ 256 then park b c u i .room w
        else
          let n := tget i.subs 0 k
          let s : DrkSub :=
            { ctx := c, step := (ctxOf b c).step.toNat, tile := tileNo u, sub := n,
              addr := (localOp b (sreg i (fa o))).1, len := (dsubLen (sreg i (fb o))).1,
              counter := (dsubCounter b (sreg i (fc o))).1 }
          retire (setDrk b k { d with subs := d.subs ++ [s] }) c u
            (countEv (setS { i with subs := tput i.subs 0 k (n + 1) } (fd o) (BitVec.ofNat 64 n))
              (evClamps (dsubClamps b i o)))

def envOp (x : U64) : Nat × Nat := if x.toNat ≤ 4095 then (x.toNat, 0) else (4095, 1)

/-- DPOLL (R202); of an absent Derrick the environment number is not used (R153). -/
def dpollEff (u : UnitId) (o : Ops) (b : Block) : Block :=
  issue b u (mkWord 0x18 0x01 o) (isTile u && legalDpoll o) fun c i =>
    let k := regionOp (sreg i (fe o))
    let e := envOp (sreg i (fa o))
    let done (x : U64) (n : Nat) : Block := retire b c u (countEv (setS i (fd o) x) (evClamps (n + k.2)))
    if !b.geo.derricks.getLsbD k.1 then done (BitVec.allOnes 64) 1
    else match tlook (drkOf b k.1).envs (envKey c e.1) with
      | some v => done v.status e.2
      | none => done 0 (1 + e.2)

/-! ### Rounds -/

/-- The running context's batches of round r of its step, in queue order. -/
def roundBatches (b : Block) (c k r : Nat) : List Batch :=
  (drkOf b k).queue.filter fun x => x.ctx == c && x.step == (ctxOf b c).step.toNat && x.round == r

/-- The round record of round r among its batches: the first to reach the queue. -/
def roundRecord (l : List Batch) (r : Nat) : Option (List Nat) :=
  ((l.flatMap fun x => x.specs).find? fun x => x.1 == r).map Prod.snd

/-- The next round of the context, when it is ready (R245): its record, the clamps of the record, its batches. -/
def readyRound (b : Block) (c k : Nat) : Option (RoundRec × Nat × List Batch) :=
  let dc := tget (drkOf b k).ctx {} c
  if dc.cur.isSome then none
  else
    let l := roundBatches b c k dc.next
    match roundRecord l dc.next with
    | none => none
    | some v =>
      let r := roundOf b c k v
      if r.1.batches ≤ l.length then some (r.1, r.2, l.take r.1.batches) else none

/-- A ready round becomes current: its batches leave the queue, and further ones of its number are discarded. -/
def startRound (b : Block) (c k : Nat) (r : RoundRec × Nat × List Batch) : Block :=
  let d := drkOf b k
  let dc := tget d.ctx {} c
  let l := roundBatches b c k dc.next
  let cur : DrkRound := { round := dc.next, spec := r.1, batches := r.2.2 }
  drkClamp (setDrk b k { d with
    queue := d.queue.filter fun x => !l.contains x
    lastRound := BitVec.ofNat 16 dc.next
    ctx := tins d.ctx c { dc with cur := some cur } }) c k (r.2.1 + (l.length - r.2.2.length))

def dnextLimit (i : UnitImg) (o : Ops) : Nat := if (sreg i (fc o)).toNat ≤ 2 ^ 32 then 0 else 1

/-- The current round of a context on a Derrick. -/
def curRound (b : Block) (c k : Nat) : Option DrkRound := (tget (drkOf b k).ctx {} c).cur

def setRound (b : Block) (c k : Nat) (f : DrkCtx → DrkCtx) : Block :=
  let d := drkOf b k
  setDrk b k { d with ctx := tins d.ctx c (f (tget d.ctx {} c)) }

/-! ### The built-in program (R261) -/

/-- The op code of the built-in solver program's next instruction: where its loop stands shows in the round in progress. -/
def drkDue (b : Block) (c k : Nat) : Nat :=
  match curRound b c k with
  | none => 0x10
  | some r =>
    if !r.applied then 0x11
    else if !r.prepped then 0x12
    else match r.stat with
      | none => 0x15
      | some st =>
        if st % 512 ≤ r.j ∨ (st.testBit 10 && !st.testBit 11 && st.testBit 9) = true then 0x14 else 0x13

/-- A solver operation: the built-in program holds it where it is due, a program of the owner's anywhere.
[DESIGN CHOICE, log 99] -/
def solverOp (b : Block) (u : UnitId) (op : Nat) (o : Ops) (legal : Bool) (eff : Nat → UnitImg → Block) : Block :=
  issueOr b u (mkWord 0x18 op o) (accepts .derrick u && legal)
    (fun c i => if accepts .derrick u && drkDue b c (regionOf u) == op then eff c i else b) eff

/-- A result register: the built-in program's registers are its own. -/
def drkOut (i : UnitImg) (o : Ops) (x : U64) : UnitImg := if i.builtin then i else setS i (fd o) x

/-- DNEXT: the built-in program waits without end, since it asks again after each timeout. -/
def dnextEff (u : UnitId) (o : Ops) (b : Block) : Block :=
  solverOp b u 0x10 o (legalDnext o) fun c i =>
    let k := regionOf u
    match readyRound b c k with
    | some r =>
      let b1 := startRound b c k r
      retire b1 c u (countEv (drkOut (img b1 c u) o 0) (evClamps (if i.builtin then 0 else dnextLimit i o)))
    | none =>
      if !i.builtin && sreg i (fc o) == 0 then retire b c u (setS i (fd o) 1)
      else park b c u i .round (mkWord 0x18 0x10 o)

/-- The timeout of a waiting DNEXT (R261): it writes 1. -/
def dnextTimeoutEff (u : UnitId) (b : Block) : Block :=
  match waitCtx b u with
  | some (c, .round, w) =>
    let o : Ops := w.setWidth 52
    let i := img b c u
    retire b c u (countEv (drkOut i o 1) (evClamps (if i.builtin then 0 else dnextLimit i o)))
  | _ => b

/-- Count clamps and fixed-point saturations of the Derrick. -/
def drkCount (i : UnitImg) (clamps sats pivots solves : Nat) : UnitImg :=
  { i with cnt := { i.cnt with
      clamp := satAdd i.cnt.clamp clamps, dsat := satAdd i.cnt.dsat sats, pivot := satAdd i.cnt.pivot pivots,
      solve := satAdd i.cnt.solve solves } }

/-! ### Faults (R227, R263) -/

/-- A Derrick fault, a region fault: cause 1 the work store, 2 a structure, an environment or a tape. -/
def drkFault (b : Block) (k cause : Nat) : Block :=
  regionFault (setDrk b k { drkOf b k with fault := BitVec.ofNat 2 cause }) k 2

/-- An operation on the work store meets the errors it holds: each is corrected and counted, or is a Derrick fault. What
three wrong symbols that decode as a single one would do to the data is not shown. [DESIGN CHOICE, log 97] -/
def storeMeet (b : Block) (k : Nat) : Block × Bool :=
  let d := drkOf b k
  let n := (d.storeErrs.filter fun e => match eccDecode e with | .single _ _ => true | _ => false).length
  let m := (d.storeErrs.filter fun e => match eccDecode e with | .bad => true | _ => false).length
  if d.storeErrs.isEmpty then (b, true)
  else
    let b1 := setDrk b k { d with
      storeErrs := [], storeCorr := satAdd d.storeCorr n, storeUncorr := satAdd d.storeUncorr m }
    if m = 0 then (b1, true) else (drkFault b1 k 1, false)

/-- `eff` on the block after the work store has been met; a fault leaves the instruction unretired. -/
def onStore (b : Block) (k : Nat) (eff : Block → Block) : Block :=
  let r := storeMeet b k
  if r.2 then eff r.1 else r.1

/-! ### Applying records -/

/-- The records of batches, read from the queue area through the region's controller; none where a word is
uncorrectable. -/
def readBatches (k : Nat) : Block → List Batch → Block × Option (List DRec)
  | b, [] => (b, some [])
  | b, x :: t =>
    let r := readOwn b (queueBase k x.place) x.len
    match r.1.2 with
    | some e => (memFault r.1.1 e, none)
    | none =>
      let z := readBatches k r.1.1 t
      (z.1, z.2.map fun l => batchRecs r.2 ++ l)

/-- DAPPLY: the records of the round's batches in the order of R201. [DEDUCED, log 39] -/
def dapplyEff (u : UnitId) (o : Ops) (b : Block) : Block :=
  solverOp b u 0x11 o (legalNone o) fun c i =>
    let k := regionOf u
    match curRound b c k with
    | none => retire b c u i
    | some r =>
      if r.applied then retire b c u i
      else onStore b k fun b0 =>
        let l := readBatches k b0 (sortBatches r.batches)
        match l.2 with
        | none => l.1
        | some recs =>
          let a := recs.foldl (applyRec c k) { d := drkOf l.1 k, b := l.1 }
          let b1 := setRound (setDrk a.b k a.d) c k fun x => { x with cur := some { r with applied := true } }
          if a.fault then drkFault b1 k 2
          else retire b1 c u (drkCount (img b1 c u) (a.clamps + applySpecs r.round r.batches) a.sats 0 0)

/-! ### Solving -/

/-- The constraint rows of a structure: slot, kind of the row (0 equality, 1 normal, 2 tangent), row of the slot's
normal. -/
def rowsFrom (image : List Byte) (bodies : Nat) : List Nat → Nat → List (Nat × Nat × Nat)
  | [], _ => []
  | s :: t, n =>
    let k := slotKind image bodies s
    ((List.range (slotRows k)).map fun j => (s, if k ≤ 2 then 0 else if j = 0 then 1 else 2, n)) ++
      rowsFrom image bodies t (n + slotRows k)

def rowsOf (s : DrkStruct) : List (Nat × Nat × Nat) := rowsFrom s.image s.bodies (List.range s.slots) 0

/-- The friction coefficient of a slot in an environment, class 21. -/
def muOf (s : DrkStruct) (e : DrkEnv) (slot : Nat) : Int :=
  match tlook e.contact slot with
  | some v => v.getD 9 0
  | none => (qOfBits (fracOf s 21) (le64 s.image (slotOff s.bodies slot + 0x38))).1

/-- proj_i of R248 on the current impulses, and whether the bound saturated. [DEDUCED, log 37] -/
def project (s : DrkStruct) (e : DrkEnv) (lam : List Int) (row : Nat × Nat × Nat) (x : Int) : Int × Bool :=
  if row.2.1 = 0 then (x, false)
  else if row.2.1 = 1 then (max 0 x, false)
  else
    let box := fxRound (muOf s e row.1 * lam.getD row.2.2 0) (-(fracOf s 21 + fracOf s 19 : Nat)) (fracOf s 19)
    (max (-box.1) (min box.1 x), box.2)

/-- Aᵢ λ + bᵢ: one exact sum of products, rounded once into class 20 (R239). -/
def rowResidual (s : DrkStruct) (p : DrkPrep) (lam : List Int) (i : Nat) : Int × Bool :=
  let n17 := fracOf s 17
  let n19 := fracOf s 19
  let n20 := fracOf s 20
  let dot := ((p.a.getD i []).zip lam).foldl (fun t x => t + x.1 * x.2) 0
  let bi := p.b.getD i 0
  -- both terms in units of 2^-(n17 + n19 + n20)
  fxRound (dot * 2 ^ n20 + bi * 2 ^ (n17 + n19)) (-(n17 + n19 + n20 : Nat)) n20

/-- λᵢ − (Aᵢ λ + bᵢ) × (1 ÷ Aᵢᵢ), with saturations counted by class. [DEDUCED, log 37] -/
def rowStep (s : DrkStruct) (p : DrkPrep) (recip lam : List Int) (i : Nat) : Int × List Nat :=
  let r := rowResidual s p lam i
  let m := fxRound (r.1 * recip.getD i 0) (-(fracOf s 20 + fracOf s 15 : Nat)) (fracOf s 19)
  let d := fxRound (lam.getD i 0 - m.1) (-(fracOf s 19 : Nat)) (fracOf s 19)
  (d.1, (if r.2 then [20] else []) ++ (if m.2 then [19] else []) ++ if d.2 then [19] else [])

/-! ### Pivots (R253) -/

/-- The value in use of a pivot: the floor of its class stands for one at or below it. -/
def pivotUsed (fl d : Int) : Int := if d ≤ fl then (if 0 ≤ d then fl else -fl) else d

/-- The failing pivots of a source among values by index. -/
def failing (src : Nat) (fl : Int) (l : List (Nat × Int)) : List (Nat × Nat × Int) :=
  (l.filter fun x => decide (x.2 ≤ fl)).map fun x => (src, x.1, x.2)

def indexed (l : List Int) : List (Nat × Int) := (List.range l.length).map fun i => (i, l.getD i 0)

/-- The articulated-body pivots of a solve, class 12: no other mode than 1 and 2 forms any. [DESIGN CHOICE, log 36] -/
def bodyPivots (x : DrkIn) : List Int :=
  if x.mode = 1 ∨ x.mode = 2 then ((Config.drkBodyPivots x).take x.structure_.nv).map qBound else []

def bodyUsed (x : DrkIn) : List Int := (bodyPivots x).map (pivotUsed (floorOf x.structure_ 12))

/-- The mass-matrix pivots of a solve with active rows, class 14. [DESIGN CHOICE, log 36] -/
def massPivots (x : DrkIn) (rows : Bool) : List Int :=
  if rows then ((Config.drkMassPivots x (bodyUsed x)).take x.structure_.nv).map qBound else []

def massUsed (x : DrkIn) (rows : Bool) : List Int := (massPivots x rows).map (pivotUsed (floorOf x.structure_ 14))

/-- What precedes the first iteration, as Q words. [DESIGN CHOICE, log 36] -/
def prepOf (x : DrkIn) (rows : Bool) : DrkPrep :=
  let p := Config.drkPrep x (bodyUsed x) (massUsed x rows)
  let n := x.structure_.rows
  { p with a := (List.range n).map fun i => qWords n (p.a.getD i []), b := qWords n p.b }

/-- The Delassus diagonal by row. -/
def diagonal (p : DrkPrep) : List (Nat × Int) := (List.range p.a.length).map fun i => (i, (p.a.getD i []).getD i 0)

/-- The Delassus pivots after R253: the diagonal or its replacement, and the failing rows with their values.
[DEDUCED, log 37] -/
def delassus (s : DrkStruct) (p : DrkPrep) (act : List Bool) : List Int × List (Nat × Nat × Int) :=
  ((diagonal p).map fun x => pivotUsed (floorOf s 18) x.2,
   failing 3 (floorOf s 18) ((diagonal p).filter fun x => act.getD x.1 false))

/-- The reciprocal Delassus pivots, class 15 (R237). [DEDUCED, log 37] -/
def recips (s : DrkStruct) (p : DrkPrep) (act : List Bool) : List Int :=
  (delassus s p act).1.map fun d => (qRecip (fracOf s 18) (fracOf s 15) d).1

/-- How many reciprocals of active rows saturate (R239). [DEDUCED, log 37] -/
def recipSats (s : DrkStruct) (p : DrkPrep) (act : List Bool) : Nat :=
  (((delassus s p act).1.zip act).filter fun x => x.2 && (qRecip (fracOf s 18) (fracOf s 15) x.1).2).length

/-- All failing pivots of a solve, articulated body first. -/
def pivotsOf (x : DrkIn) (p : DrkPrep) (act : List Bool) : List (Nat × Nat × Int) :=
  failing 1 (floorOf x.structure_ 12) (indexed (bodyPivots x)) ++
    failing 2 (floorOf x.structure_ 14) (indexed (massPivots x (act.any id))) ++ (delassus x.structure_ p act).2

/-! ### Iterations -/

/-- One iteration of projected Gauss-Seidel over the active rows in ascending order (R248). [DEDUCED, log 37] -/
def iterate (w : Work) : Work :=
  let s := w.inp.structure_
  let rc := recips s w.prep w.act
  let rows := rowsOf s
  let lam0 := w.lams.getLast?.getD []
  let r := (List.range rows.length).foldl (fun (z : List Int × List Nat) i =>
    if w.act.getD i false then
      let x := rowStep s w.prep rc z.1 i
      let y := project s w.inp.env z.1 (rows.getD i (0, 0, 0)) x.1
      (z.1.set i y.1, z.2 ++ x.2 ++ if y.2 then [19] else [])
    else z) (lam0, [])
  { w with lams := w.lams ++ [r.1], sats := w.sats + r.2.length, satClass := w.satClass.or r.2.head? }

/-- Whether the adjoint passes row i of an iteration: its bound was inactive and nothing of the row saturated (R259). -/
def passes (w : Work) (rc before now : List Int) (i : Nat) : Bool :=
  let s := w.inp.structure_
  let lam := now.take i ++ before.drop i
  let x := rowStep s w.prep rc lam i
  let y := project s w.inp.env lam ((rowsOf s).getD i (0, 0, 0)) x.1
  x.2.isEmpty && !y.2 && y.1 == x.1

/-- Row i of an iteration run backwards: the adjoint of its residual, class 26, and of every impulse it read; the flags
say what saturated. [DEDUCED, log 37] -/
def backRow (w : Work) (rc before now : List Int) (z : List Int × List Int × Nat) (i : Nat) : List Int × List Int × Nat :=
  if w.act.getD i false then
    let s := w.inp.structure_
    let n26 := fracOf s 26
    let n17 := fracOf s 17
    let g := if passes w rc before now i then z.1.getD i 0 else 0
    let res := fxRound (-(g * rc.getD i 0)) (-(n26 + fracOf s 15 : Nat)) n26
    let l := (List.range s.rows).map fun k =>
      fxRound ((if k = i then g else z.1.getD k 0) * 2 ^ n17 + res.1 * (w.prep.a.getD i []).getD k 0) (-(n26 + n17 : Nat)) n26
    (l.map Prod.fst, z.2.1.set i res.1, z.2.2 + res.2.toNat + (l.filter Prod.snd).length)
  else z

/-- One iteration of a tape entry run backwards (R259); with none left it does nothing. -/
def backIterate (w : Work) : Work :=
  let done := w.adjRes.length
  let j := w.lams.length - 1
  if j ≤ done then w
  else
    let s := w.inp.structure_
    let before := w.lams.getD (j - done - 1) []
    let now := w.lams.getD (j - done) []
    let r := ((List.range s.rows).reverse).foldl (backRow w (recips s w.prep w.act) before now)
      (w.adjLam, List.replicate s.rows 0, 0)
    { w with adjLam := r.1, adjRes := w.adjRes ++ [r.2.1], sats := w.sats + r.2.2,
             satClass := w.satClass.or (if r.2.2 = 0 then none else some 26) }

/-! ### Preparing -/

def rowActive (e : DrkEnv) (rows : List (Nat × Nat × Nat)) : List Bool := rows.map fun r => e.active.getD r.1 false

/-- What precedes the first iteration of one solve (R247, R249, R253). [DESIGN CHOICE, log 36] -/
def prepEnv (s : DrkStruct) (e : DrkEnv) (n : Nat) (r : RoundRec) : Work :=
  let h := qOfBits (fracOf s 22) r.h.toNat
  let inp : DrkIn := { structure_ := s, env := e, h := h.1, mode := r.mode }
  let rows := rowsOf s
  let act := if r.mode = 2 then rowActive e rows else rows.map fun _ => false
  let p := prepOf inp (act.any id)
  let warm := (List.range rows.length).map fun i =>
    if r.warm && act.getD i false then tlook e.warm i else some 0
  { env := n, inp := inp, prep := p, pivots := pivotsOf inp p act, act := act, lams := [warm.map fun x => x.getD 0],
    zeroGuess := warm.any Option.isNone, sats := p.sats + h.2.1.toNat + recipSats s p act
    nan := s.nanIn || e.nanIn || h.2.2
    satClass := (((s.satClass.or e.satClass).or (if h.2.1 then some 22 else none)).or p.satClass).or
      (if recipSats s p act = 0 then none else some 15) }

/-- The tape entry an adjoint round runs on (R259, R260). -/
def adjointEntry (dc : DrkCtx) (r : RoundRec) : Option TapeEntry :=
  match dc.tape.getLast? with
  | some t => if t.first = r.first ∧ t.nenv = r.nenv then some t else none
  | none => none

/-- The environment's solve in a tape entry. -/
def tapeWork (t : Option TapeEntry) (n : Nat) : Option Work := t.bind fun x => x.work.find? fun y => y.env == n

/-- An adjoint solve begins with the adjoint of the entry's last iterate (R259); without an entry it has nothing to run. -/
def adjointEnv (t : Option TapeEntry) (s : DrkStruct) (e : DrkEnv) (n : Nat) : Work :=
  let inp : DrkIn := { structure_ := s, env := e, h := 0, mode := 3 }
  let none_ : Work :=
    { env := n, inp := inp, prep := { a := [], b := [], satClass := none, sats := 0 }, pivots := [], lams := [], act := [],
      zeroGuess := false, satClass := s.satClass.or e.satClass, sats := 0, nan := s.nanIn || e.nanIn }
  match tapeWork t n with
  | none => none_
  | some w =>
    { w with
      pivots := [], zeroGuess := false, satClass := none_.satClass, sats := 0, nan := none_.nan
      adjLam := qWords s.rows (Config.drkAdjStart w e.seeds), adjRes := [] }

/-- The resident environments of the context among those solved, and how many are missing (R246). -/
def solveList (d : Drk) (c : Nat) (r : RoundRec) : List (Nat × DrkEnv × DrkStruct) × Nat :=
  let l := (List.range r.nenv).filterMap fun j => (envOf d c (r.first + j)).map fun x => (r.first + j, x.1, x.2)
  (l, r.nenv - l.length)

/-- The Derrick reads the environment blocks of a round, and the tape entry of an adjoint one, through its region's
controller: whether every word of them could be read. -/
def readRanges (b : Block) : List (Nat × Nat) → Block × Bool
  | [] => (b, true)
  | r :: t =>
    let x := readOwn b r.1 r.2
    if x.1.2.isSome then (x.1.1, false) else readRanges x.1.1 t

def prepRanges (l : List (Nat × DrkEnv × DrkStruct)) (t : Option TapeEntry) : List (Nat × Nat) :=
  (l.map fun x => (x.2.2.area + x.1 * x.2.2.stride, x.2.2.stride)) ++
    match t with
    | some e => [(e.addr % 2 ^ 49, e.len)]
    | none => []

/-- [DEDUCED, log 39] -/
def dprepEff (u : UnitId) (o : Ops) (b : Block) : Block :=
  solverOp b u 0x12 o (legalNone o) fun c i =>
    let k := regionOf u
    match curRound b c k with
    | none => retire b c u i
    | some r =>
      if !r.applied || r.prepped then retire b c u i
      else onStore b k fun b0 =>
        let l := solveList (drkOf b0 k) c r.spec
        let t := if r.spec.mode = 3 then adjointEntry (tget (drkOf b0 k).ctx {} c) r.spec else none
        let m := readRanges b0 (prepRanges l.1 t)
        let work := l.1.map fun x => if r.spec.mode = 3 then adjointEnv t x.2.2 x.2.1 x.1 else prepEnv x.2.2 x.2.1 x.1 r.spec
        let b1 := setRound m.1 c k fun x => { x with cur := some { r with prepped := true, work := work } }
        if m.2 then retire b1 c u (drkCount (img b1 c u) l.2 0 0 0) else drkFault m.1 k 2

/-- DITER: one iteration of every solve; of an adjoint round, one of its entry's run backwards. [DEDUCED, log 39] -/
def diterEff (u : UnitId) (o : Ops) (b : Block) : Block :=
  solverOp b u 0x13 o (legalNone o) fun c i =>
    let k := regionOf u
    match curRound b c k with
    | none => retire b c u i
    | some r =>
      if !r.prepped then retire b c u i
      else onStore b k fun b0 =>
        let work := r.work.map (if r.spec.mode = 3 then backIterate else iterate)
        retire (setRound b0 c k fun x => { x with cur := some { r with j := r.j + 1, work := work, stat := none } }) c u i

/-! ### Cut level and iteration limit (R250, R251) -/

def forceEn (f : U32) : Bool := f.getLsbD 25
def forceRound (f : U32) : Nat := f.toNat % 65536
def forceIters (f : U32) : Nat := f.toNat / 65536 % 512

/-- The iteration limit of a round: its request, the cut level in force, or the level replay forces; of an adjoint round,
the iterations its entry holds (R259). -/
def iterLimit (b : Block) (c k : Nat) (r : DrkRound) : Nat :=
  let dc := tget (drkOf b k).ctx {} c
  if r.spec.mode = 3 then (match adjointEntry dc r.spec with | some t => t.j | none => 0)
  else if (ctxOf b c).replay then
    if forceEn dc.force && decide (forceRound dc.force ≤ r.round) then min r.spec.iters (forceIters dc.force)
    else r.spec.iters
  else match dc.cut with
    | some x => min r.spec.iters x.2
    | none => r.spec.iters

/-- The round is one that the deadline cuts: an adjoint round ignores CUT (R259). -/
def cutMode (r : RoundRec) : Bool := r.cut && r.mode != 3

def deadlinePassed (r : DrkRound) (elapsed : Nat) : Bool := r.spec.deadline != 0 && decide (r.spec.deadline < elapsed)

/-- The word DSTAT writes. [DEDUCED, log 40] -/
def dstatWord (b : Block) (c k elapsed : Nat) : Nat :=
  match curRound b c k with
  | none => 0
  | some r =>
    let level := (tget (drkOf b k).ctx {} c).cut.isSome
    iterLimit b c k r % 512 + 2 ^ 9 * (deadlinePassed r elapsed).toNat +
      2 ^ 10 * (cutMode r.spec && !level).toNat + 2 ^ 11 * (ctxOf b c).replay.toNat

/-- The built-in program keeps what DSTAT tells it until its next instruction. -/
def dstatEff (u : UnitId) (o : Ops) (elapsed : Nat) (b : Block) : Block :=
  solverOp b u 0x15 o (legalDstat o) fun c i =>
    let k := regionOf u
    let x := dstatWord b c k elapsed
    let b1 := if i.builtin then
        setRound b c k fun y => { y with cur := y.cur.map fun r => { r with stat := some x } }
      else b
    retire b1 c u (drkOut i o (BitVec.ofNat 64 x))

/-! ### Finishing -/

/-- The residual of an active row in class 24 (R254), with the classes its operations saturated in. [DEDUCED, log 37] -/
def rowFinal (w : Work) (i : Nat) : Int × List Nat :=
  let s := w.inp.structure_
  let n19 := fracOf s 19
  let lam := w.lams.getLast?.getD []
  let row := (rowsOf s).getD i (0, 0, 0)
  let r := rowResidual s w.prep lam i
  let into (x : Int) (n : Nat) : Int × Bool := fxRound x.natAbs (-(n : Int)) (fracOf s 24)
  let mark (x : Bool) (c : Nat) : List Nat := if x then [c] else []
  if row.2.1 = 0 then
    let y := into r.1 (fracOf s 20)
    (y.1, mark r.2 20 ++ mark y.2 24)
  else
    -- λ less the residual: one exact sum of a class-19 and a class-20 value, rounded once
    let d := fxRound (lam.getD i 0 * 2 ^ fracOf s 20 - r.1 * 2 ^ n19) (-(n19 + fracOf s 20 : Nat)) n19
    let p := project s w.inp.env lam row d.1
    let y := into (lam.getD i 0 - p.1) n19
    (y.1, mark r.2 20 ++ mark d.2 19 ++ mark p.2 19 ++ mark y.2 24)

/-- The residuals against their tolerances (R254): bounded exceeded, equality exceeded, saturations by class. -/
def residualFlags (w : Work) : Bool × Bool × List Nat :=
  let s := w.inp.structure_
  let rows := rowsOf s
  let tol (o : Nat) : Int := (qOfBits (fracOf s 24) (le64 s.image o)).1
  let res := ((List.range rows.length).filter fun i => w.act.getD i false).map fun i =>
    ((rows.getD i (0, 0, 0)).2.1 != 0, rowFinal w i)
  (res.any fun x => x.1 && decide (tol 0x18 < x.2.1), res.any fun x => !x.1 && decide (tol 0x20 < x.2.1),
   res.flatMap fun x => x.2.2)

/-- The failing pivot of the first source that has one, at its lowest index. -/
def firstPivot (l : List (Nat × Nat × Int)) : Option (Nat × Nat) :=
  match [1, 2, 3].find? fun s => l.any fun x => x.1 == s with
  | none => none
  | some s => some (s, ((l.filter fun x => x.1 == s).map fun x => x.2.1).foldl min 4095)

/-! ### Integration (R247) -/

/-- Each body's joint kind with its first position and velocity coordinate. -/
def coordsFrom (image : List Byte) : List Nat → Nat → Nat → List (Nat × Nat × Nat)
  | [], _, _ => []
  | n :: t, p, v =>
    let j := jointOf image n
    (j, p, v) :: coordsFrom image t (p + jointQ j) (v + jointV j)

/-- q̇⁺ = q̇ + h × q̈ + M⁻¹ Jᵀ λ, one exact sum rounded once into class 1. [DEDUCED, log 37] -/
def velStep (x : DrkIn) (f : DrkFin) (j : Nat) : Int × Bool :=
  let s := x.structure_
  let n1 := fracOf s 1
  let hq := fracOf s 22 + fracOf s 2
  fxRound ((x.env.qd.getD j 0 + f.dv.getD j 0) * 2 ^ hq + x.h * f.qdd.getD j 0 * 2 ^ n1) (-(n1 + hq : Nat)) n1

/-- q advanced by h × q̇⁺, into class 0. [DEDUCED, log 37] -/
def posStep (x : DrkIn) (v : List Int) (p j : Nat) : Int × Bool :=
  let s := x.structure_
  let n0 := fracOf s 0
  let hv := fracOf s 22 + fracOf s 1
  fxRound (x.env.q.getD p 0 * 2 ^ hv + x.h * v.getD j 0 * 2 ^ n0) (-(n0 + hv : Nat)) n0

/-- A quaternion renormalised: each component over the root of the exact sum of squares (R239, R247); of norm 0 there is
nothing to divide by, and the kernel's value stands. [DEDUCED, log 37] -/
def renorm (n : Nat) (l : List Int) : List (Int × Bool) :=
  let r := fxSqrt (l.foldl (fun t x => t + x * x) 0).toNat n
  if r.1 = 0 then l.map fun x => (x, false) else l.map fun x => let y := fxQuot x n r.1 n n; (y.1, y.2 || r.2)

/-- Positions after a step: coordinates that are no quaternions by h × q̇⁺, a free joint's translation by its first three
velocities. [DEDUCED, log 37] -/
def advance (x : DrkIn) (f : DrkFin) (v : List Int) : List (Int × Bool) :=
  let s := x.structure_
  let quat (p : Nat) : List (Int × Bool) := renorm (fracOf s 0) ((List.range 4).map fun t => f.quat.getD (p + t) 0)
  (coordsFrom s.image (List.range s.bodies) 0 0).flatMap fun y =>
    if y.1 = 0 then []
    else if y.1 = 3 then quat y.2.1
    else if y.1 = 4 then ((List.range 3).map fun t => posStep x v (y.2.1 + t) (y.2.2 + t)) ++ quat (y.2.1 + 3)
    else [posStep x v y.2.1 y.2.2]

/-- What a solve brings: positions, velocities, accelerations, impulses, poses and adjoints, with the classes that
finishing saturated in. -/
structure Solved where
  q : List Int
  qd : List Int
  qdd : List Int
  lam : List Int
  poses : List Int
  adj : List Int
  sats : List Nat

def adjCount (s : DrkStruct) : Nat := s.nq + 2 * s.nv + 10 * s.bodies

/-- The kernels' values as Q words of a structure (R236). -/
def finWords (s : DrkStruct) (f : DrkFin) : DrkFin :=
  { f with
    qdd := qWords s.nv f.qdd, dv := qWords s.nv f.dv, quat := qWords s.nq f.quat, poses := qWords (7 * s.bodies) f.poses
    adj := qWords (adjCount s) f.adj }

def finSats (f : DrkFin) : List Nat :=
  match f.satClass with
  | some c => List.replicate (max 1 f.sats) c
  | none => []

/-- Finishing a forward solve (R247). [DESIGN CHOICE, log 36] -/
def solveOf (w : Work) : Solved :=
  let x := w.inp
  let s := x.structure_
  let lam := w.lams.getLast?.getD []
  let f := finWords s (Config.drkFin x (bodyUsed x) (massUsed x (w.act.any id)) lam)
  let still : Solved :=
    { q := qWords s.nq x.env.q, qd := qWords s.nv x.env.qd, qdd := f.qdd, lam := qWords s.rows lam, poses := f.poses,
      adj := [], sats := finSats f }
  if x.mode = 2 then
    let v := (List.range s.nv).map (velStep x f)
    let p := advance x f (v.map Prod.fst)
    { still with
      q := qWords s.nq (p.map Prod.fst), qd := v.map Prod.fst
      sats := still.sats ++ ((v.filter Prod.snd).map fun _ => 1) ++ (p.filter Prod.snd).map fun _ => 0 }
  else still

/-- Finishing an adjoint solve (R259): without an entry the adjoints are zero (R260). [DESIGN CHOICE, log 36] -/
def adjointOf (s : DrkStruct) (e : DrkEnv) (w : Work) : Solved :=
  let f : DrkFin :=
    if w.inp.mode = 3 then { qdd := [], dv := [], quat := [], poses := [], adj := [], satClass := none, sats := 0 }
    else Config.drkAdjoint w e.seeds w.adjLam w.adjRes
  { q := qWords s.nq e.q, qd := qWords s.nv e.qd, qdd := [], lam := [], poses := [], adj := (finWords s f).adj,
    sats := finSats f }

structure SolveOut where
  late : Bool
  noTape : Bool
  adjoint : Bool
  reached : Nat
  requested : Nat
  round : Nat

/-- The status word of R256. -/
def statusWord (w : Work) (f : Solved) (x : SolveOut) : U64 :=
  let p := w.pivots
  let res := if x.adjoint then (false, false, []) else residualFlags w
  let sat := (w.satClass.or res.2.2.head?).or f.sats.head?
  let fp := firstPivot p
  BitVec.ofNat 64
    (1 + 2 * x.late.toNat + 4 * (!x.adjoint && decide (x.reached < x.requested)).toNat + 8 * res.1.toNat +
      16 * res.2.1.toNat + 32 * (p.any fun y => decide (y.2.2 ≤ 0)).toNat + 64 * (!p.isEmpty).toNat + 128 * sat.isSome.toNat +
      256 * w.nan.toNat + 512 * w.zeroGuess.toNat + 1024 * x.adjoint.toNat + 2048 * x.noTape.toNat +
      (match fp with | some y => 2 ^ 12 * y.1 + 2 ^ 14 * (y.2 % 4096) | none => 0) +
      2 ^ 26 * (sat.getD 0 % 32) + 2 ^ 32 * x.reached + 2 ^ 48 * (x.round % 65536))

def qBytes (n : Nat) (l : List Int) : List Byte := l.flatMap fun x => leBytes 8 (bitsOfQ n x)

/-- Poses of the output record: translations of class 4, quaternions of class 5. -/
def poseBytes (s : DrkStruct) (l : List Int) : List Byte :=
  (List.range (7 * s.bodies)).flatMap fun j =>
    leBytes 8 (bitsOfQ (fracOf s (if j % 7 < 3 then 4 else 5)) (l.getD j 0))

/-- The adjoints of q and velocities in class 25, of τ in class 26, of body parameters in class 27. -/
def adjBytes (s : DrkStruct) (l : List Int) : List Byte :=
  (List.range (adjCount s)).flatMap fun j =>
    let cls := if j < s.nq + s.nv then 25 else if j < s.nq + 2 * s.nv then 26 else 27
    leBytes 8 (bitsOfQ (fracOf s cls) (l.getD j 0))

/-- The fields that a solve gives values, by offset (R235, R247): the head with its reserved bytes zero, the positions and
velocities after the solve, and the outputs of its mode. -/
def outParts (s : DrkStruct) (mode : Nat) (f : Solved) (st : U64) (step : Nat) (x : SolveOut) : List (Nat × List Byte) :=
  let oQ := 0x40
  let oV := oQ + 8 * s.nq
  let oA := oV + 8 * s.nv
  let oL := oA + 8 * s.nv
  let oP := oL + 8 * s.rows
  let oJ := oP + 56 * s.bodies
  [(0, leBytes 8 st.toNat ++ leBytes 8 step ++ leBytes 2 x.round ++ leBytes 2 x.reached ++ leBytes 44 0),
   (oQ, qBytes (fracOf s 0) f.q), (oV, qBytes (fracOf s 1) f.qd)] ++
    (if x.adjoint then [(oJ, adjBytes s f.adj)]
     else (if mode = 0 then [] else [(oA, qBytes (fracOf s 2) f.qdd)]) ++
       (if mode = 2 then [(oL, qBytes (fracOf s 19) f.lam)] else []) ++ [(oP, poseBytes s f.poses)])

/-- The record whole: fields that the solve gives no value stand as they are. [DEDUCED, log 40] -/
def outRecord (old : List Byte) (parts : List (Nat × List Byte)) : List Byte :=
  parts.foldl (fun r p => r.take p.1 ++ p.2 ++ r.drop (p.1 + p.2.length)) old

/-- What the environment is after a solve; an adjoint round that had an entry clears the seeds it used (R243, R260). -/
def envAfter (w : Work) (e : DrkEnv) (f : Solved) (st : U64) (adjoint used : Bool) : DrkEnv :=
  let s := w.inp.structure_
  let e1 := { e with status := st, nanIn := false, satClass := none }
  if adjoint then (if used then { e1 with seeds := [] } else e1)
  else if w.inp.mode = 2 then
    { e1 with
      q := f.q, qd := f.qd
      warm := (List.range s.rows).foldl (fun t i => if w.act.getD i false then tins t i (f.lam.getD i 0) else t) e.warm }
  else e1

/-- Bytes of a tape entry (R258). -/
def entryLen (work : List Work) (j : Nat) : Nat :=
  64 + sumOf (work.map fun w =>
    let s := w.inp.structure_
    ceil64 (64 + 8 * (s.nq + 2 * s.nv + s.rows * (j + 1))))

/-- Write a tape entry. None when it would pass the limit; else with whether every word of it could be written.
[DEDUCED, log 40] -/
def writeTape (b : Block) (c k : Nat) (r : DrkRound) (j : Nat) : Option (Block × Bool) :=
  let dc := tget (drkOf b k).ctx {} c
  let moved := dc.tapeBase != r.spec.tapeBase
  let top := if moved then r.spec.tapeBase else dc.tapeTop
  let n := entryLen r.work j
  if top.toNat + n ≤ r.spec.tapeLimit.toNat then
    let e : TapeEntry :=
      { step := (ctxOf b c).step.toNat, round := r.round, first := r.spec.first, nenv := r.spec.nenv,
        mode := r.spec.mode, j := j, addr := top.toNat, len := n, work := r.work }
    let w := writeMem b (faLocal top) (faLocal top) ((List.range n).map (Config.drkTapeByte e))
    some (setRound w.1 c k fun x =>
      { x with tapeBase := r.spec.tapeBase, tapeTop := top + BitVec.ofNat 64 n,
               tape := (if moved then [] else x.tape) ++ [e] }, w.2)
  else none

/-- The block of an environment after a solve: its output record, then its state in a layout of the Derrick's own (R235).
[DEDUCED, log 40] -/
def envBytes (b : Block) (s : DrkStruct) (n : Nat) (e : DrkEnv) (parts : List (Nat × List Byte)) : List Byte :=
  let len := outBytes s.nq s.nv s.rows s.bodies
  outRecord (rdKeys b (s.area + n * s.stride) len) parts ++
    (List.range (s.stride - len)).map (Config.drkStateByte e)

/-- One solve is finished: outputs, environment, summary (R235, R256, R257), and whether its block could be written.
[DESIGN CHOICE, log 36] -/
def finishSolve (c k step : Nat) (x : SolveOut) (used : Bool) (z : Block × Bool) (w : Work) : Block × Bool :=
  let b := z.1
  let d := drkOf b k
  match envOf d c w.env with
  | none => z
  | some (e, s) =>
    let f := if x.adjoint then adjointOf s e w else solveOf w
    let st := statusWord w f x
    let e1 := envAfter w e f st x.adjoint used
    let base := s.area + w.env * s.stride
    let m := writeMem (setDrk b k { d with envs := tins d.envs (envKey c w.env) e1 }) base base
      (envBytes b s w.env e1 (outParts s w.inp.mode f st step x))
    let flagged := (st.toNat / 8 % 64) != 0
    let b2 := setRound m.1 c k fun y =>
      { y with
        statusOr := y.statusOr ||| st.setWidth 16
        minIters := some (match y.minIters with | some m => min m x.reached | none => x.reached)
        flagged := min 0xFFFF (y.flagged + flagged.toNat)
        firstEnv := if flagged then (match y.firstEnv with
            | some p => if p.1 = x.round then some (x.round, min p.2 w.env) else some p
            | none => some (x.round, w.env)) else y.firstEnv }
    (setImg b2 c (drkUnit k) (drkCount (img b2 c (drkUnit k)) 0
      (w.sats + f.sats.length + if x.adjoint then 0 else (residualFlags w).2.2.length) w.pivots.length 1), z.2 && m.2)

/-- The cut level a finished round records (R251). -/
def newCut (b : Block) (c k : Nat) (r : DrkRound) (j : Nat) : Option (Nat × Nat) :=
  let dc := tget (drkOf b k).ctx {} c
  match dc.cut with
  | some x => some x
  | none =>
    if (ctxOf b c).replay then
      if forceEn dc.force && forceRound dc.force == r.round then some (r.round, forceIters dc.force) else none
    else if cutMode r.spec && decide (j < r.spec.iters) then some (r.round, j) else none

/-- What a finished round does to the tape: the block, whether every word could be written, whether its solves get
NO_TAPE, and whether an adjoint round had an entry. -/
structure TapeSide where
  b : Block
  good : Bool := true
  noTape : Bool := false
  used : Bool := false

def tapeSide (b : Block) (c k : Nat) (r : DrkRound) (j : Nat) : TapeSide :=
  if r.spec.mode = 3 then
    match adjointEntry (tget (drkOf b k).ctx {} c) r.spec with
    | some t =>
      { b := setRound b c k fun x => { x with tape := x.tape.dropLast, tapeTop := BitVec.ofNat 64 t.addr }, used := true }
    | none => { b := b, noTape := true }
  else if r.spec.tape then
    match writeTape b c k r j with
    | some x => { b := x.1, good := x.2 }
    | none => { b := b, noTape := true }
  else { b := b }

/-- The iterations reached that DFIN is given: the built-in program's count. -/
def finCount (r : DrkRound) (i : UnitImg) (o : Ops) : Nat × Nat :=
  if i.builtin then (r.j, 0)
  else if (sreg i (fa o)).toNat ≤ 256 then ((sreg i (fa o)).toNat, 0) else (256, 1)

/-- DFIN (R250). While its port is full it waits at issue: the command leaves the block as it stands.
[DEDUCED, log 39] -/
def dfinEff (u : UnitId) (o : Ops) (elapsed : Nat) (b : Block) : Block :=
  solverOp b u 0x14 o (legalDfin o) fun c i =>
    let k := regionOf u
    match curRound b c k with
    | none => retire b c u i
    | some r =>
      if portFull i then b
      else onStore b k fun b0 =>
        let j := finCount r i o
        let late := !cutMode r.spec && !(ctxOf b0 c).replay && deadlinePassed r elapsed
        let cut := newCut b0 c k r j.1
        let t := tapeSide b0 c k r j.1
        let x : SolveOut :=
          { late := late, noTape := t.noTape, adjoint := r.spec.mode == 3, reached := j.1, requested := r.spec.iters,
            round := r.round }
        let z := r.work.foldl (finishSolve c k (ctxOf b0 c).step.toNat x t.used) (t.b, t.good)
        let b2 := setRound z.1 c k fun y =>
          { y with cur := none, next := r.round + 1, cut := cut, rounds := y.rounds + 1, late := y.late + late.toNat }
        if z.2 then
          let d := drkOf b2 k
          let b3 := setDrk b2 k { d with roundsRun := satAdd d.roundsRun 1, solves := satAdd d.solves r.work.length }
          let b4 := if r.spec.counter = 0 then b3
            else startOp b3 c u .plain [(r.spec.counter, .signal r.spec.inc, 0)]
          retire b4 c u (countEv (img b4 c u) (evClamps j.2))
        else drkFault z.1 k 2

/-! ### Copying a batch -/

/-- A batch as the Derrick's queue notes it. -/
def batchOf (s : DrkSub) (place : Nat) (x : List Byte) : Batch :=
  { ctx := s.ctx, step := s.step, tile := s.tile, sub := s.sub, place := place, len := s.len, round := le16 x 0,
    specs := batchSpecs x }

/-- A batch of a round of the step that has already started (R246). -/
def batchGone (b : Block) (k : Nat) (x : Batch) : Bool :=
  let dc := tget (drkOf b k).ctx {} x.ctx
  x.step == (ctxOf b x.ctx).step.toNat && (decide (x.round < dc.next) || (dc.cur.isSome && x.round == dc.next))

/-- The Derrick copies the oldest submission into a free place of its queue area, then adds 1 to its counter (R200, R229). A
batch of a round of the step that has already started is discarded (R246). A submission that the memory code cannot correct is
copied nowhere: its context has halted. -/
def batchEnqueue (k : Nat) (b : Block) : Block :=
  let d := drkOf b k
  match d.subs, freePlace d with
  | s :: rest, some p =>
    let u := UnitId.tile (Fin.ofNat 1152 s.tile)
    let taken (z : Block) : Block := setDrk z k { drkOf z k with subs := rest }
    match meetRead b s.ctx u s.addr s.len with
    | .tileFault b1 => taken b1
    | .refused b1 => taken b1
    | .ok b1 =>
      let x := readBytes b1 s.ctx (img b1 s.ctx u) s.addr s.len
      let q := batchOf s p x
      let b2 := taken b1
      let b3 := if s.len = 0 then b2
        else if batchGone b2 k q then drkClamp b2 s.ctx k 1
        else
          let e := drkOf b2 k
          (writeMem (setDrk b2 k { e with queue := e.queue ++ [q] }) (queueBase k p) (queueBase k p) x).1
      if s.counter = 0 then b3 else addCounter b3 s.ctx s.counter 1
  | _, _ => b

end Sys2Proof.Machine
end

