-- ==== Sys2Proof/Machine/ShortVector.lean ====
section
/-!
DEFINITION. The short-vector class (R119, R146 to R150).
-/
namespace Sys2Proof.Machine

/-- The format of [31:28]. -/
def vFmt (o : Ops) : Fmt := (fmtOfCode (bits o 28 4)).getD .f64

def vMode (o : Ops) : RMode := modeOf (bits o 26 2)

def vMax (f : Fmt) : Nat := 128 / fmtWidth f

/-- n = min(vl, 128 ÷ w); a vl above it counts one clamp (R146, R154). -/
def vCount (i : UnitImg) (f : Fmt) : Nat × Nat :=
  if i.vl.toNat ≤ vMax f then (i.vl.toNat, 0) else (vMax f, 1)

def vElem (f : Fmt) (x : BitVec 128) (k : Nat) : Nat := x.toNat / 2 ^ (fmtWidth f * k) % 2 ^ fmtWidth f

/-- Replace element `k`. -/
def vSetElem (f : Fmt) (x : BitVec 128) (k v : Nat) : BitVec 128 :=
  let w := fmtWidth f
  BitVec.ofNat 128 (x.toNat - vElem f x k * 2 ^ (w * k) + v % 2 ^ w * 2 ^ (w * k))

/-- Issue to the short-vector unit: it resets the idle count, and wakes the unit when it was powered down (R119). -/
def svuTouch (b : Block) : UnitId → Block
  | .tile t =>
    let h := tileHw b t.val
    setTileHw b t.val { h with svuDown := false, svuIdle := 0, svuWake := satAdd h.svuWake h.svuDown.toNat }
  | _ => b

/-- A short-vector instruction that raises no exception of its own: only tiles accept the class (R133).
[DESIGN CHOICE, log 17] -/
def svIssue (b : Block) (u : UnitId) (op : Nat) (o : Ops) (legal : Ops → Bool) (eff : Nat → UnitImg → Block → Block) :
    Block :=
  issue b u (mkWord 8 op o) (isTile u && legal o) fun c i => eff c i (svuTouch b u)

def vsetvlEff (u : UnitId) (o : Ops) (b : Block) : Block :=
  svIssue b u 0x00 o legalVsetvl fun c i b =>
    let n := min (sreg i (fa o)).toNat (vMax (vFmt o))
    retire b c u { setS i (fd o) (BitVec.ofNat 64 n) with vl := BitVec.ofNat 8 n }

/-- An element-wise operation on the first n elements, each rounded once (R40, R149). -/
def vMapN (f : Fmt) (mode : RMode) (g : FVal → FVal → FVal → FRes) (x y z : BitVec 128) :
    Nat → BitVec 128 → Ev → BitVec 128 × Ev
  | 0, d, e => (d, e)
  | n + 1, d, e =>
    let p := vMapN f mode g x y z n d e
    let r := finish f mode (g (fdecode f (vElem f x n)) (fdecode f (vElem f y n)) (fdecode f (vElem f z n)))
    (vSetElem f p.1 n r.1, evAdd p.2 r.2)

def vElementwise (op : Nat) (legal : Ops → Bool) (g : FVal → FVal → FVal → FRes) (u : UnitId) (o : Ops) (b : Block) :
    Block :=
  svIssue b u op o legal fun c i b =>
    let n := vCount i (vFmt o)
    let r := vMapN (vFmt o) (vMode o) g (vreg i (fa o)) (vreg i (fb o)) (vreg i (fc o)) n.1 (vreg i (fd o)) (evClamps n.2)
    retire b c u (countEv (setV i (fd o) r.1) r.2)

def vaddEff := vElementwise 0x03 legalV2 fun x y _ => fAdd x y
def vmulEff := vElementwise 0x04 legalV2 fun x y _ => fMul x y
/-- [DEDUCED, log 26] -/
def vfmaEff := vElementwise 0x05 legalVfma fun x y z => fFma x y z
def vminEff := vElementwise 0x06 legalVmm fun x y _ => ⟨fMin x y, false, false⟩
def vmaxEff := vElementwise 0x07 legalVmm fun x y _ => ⟨fMax x y, false, false⟩

/-- The exact sum of values, with the special values and the zero sign of an array pass (R39, R150).
[DEDUCED, log 26] -/
def exactSum (l : List FVal) : FRes :=
  if l.any fIsNan then ⟨.nan, false, false⟩
  else
    let infs := l.filterMap fun x => match x with | .inf s => some s | _ => none
    if infs.contains true && infs.contains false then ⟨.nan, false, true⟩
    else if infs.contains true then ⟨.inf true, false, false⟩
    else if infs.contains false then ⟨.inf false, false, false⟩
    else if l.all fun x => fIsZero x && fSign x then ⟨.fin true 0 0, false, false⟩
    else
      let r := l.foldl (fun a x => (fAdd a x).v) (.fin false 0 0)
      ⟨if fIsZero r then .fin false 0 0 else r, false, false⟩

/-- The value VRED reduces to, from a list that is not empty (R150). [DEDUCED, log 26] -/
def vReduce (op : Nat) (l : List FVal) : FRes :=
  if op = 0 then exactSum l
  else ⟨l.tail.foldl (if op = 1 then fMin else fMax) (l.headD .nan), false, false⟩

def vredEff (u : UnitId) (o : Ops) (b : Block) : Block :=
  svIssue b u 0x08 o legalVred fun c i b =>
    let f := vFmt o
    let n := vCount i f
    let l := (List.range n.1).map fun k => fdecode f (vElem f (vreg i (fa o)) k)
    if n.1 = 0 then retire b c u (countEv i (evClamps n.2))
    else
      let r := finish f (vMode o) (vReduce (bits o 24 2) l)
      retire b c u (countEv (setV i (fd o) (vSetElem f (vreg i (fd o)) 0 r.1)) (evAdd r.2 (evClamps n.2)))

def vAddr (i : UnitImg) (o : Ops) : U64 := sreg i (fa o) + off24 o

/-- VLD (R148): n elements, or one element broadcast. -/
def vldEff (u : UnitId) (o : Ops) (b : Block) : Block :=
  issue b u (mkWord 8 0x01 o) (isTile u && legalVld o) fun c i =>
    let w := mkWord 8 0x01 o
    let f := vFmt o
    let n := vCount i f
    let es := fmtWidth f / 8
    let a := vAddr i o
    let len := if bit o 25 then (if n.1 = 0 then 0 else es) else n.1 * es
    match badByte b c a len with
    | some x => takeExc b c u 3 x w
    | none =>
      if missing b c i a len then fetchRemote b c u w [(a, len)]
      else
        let put (x : List Byte) : UnitImg :=
          let d := (List.range n.1).foldl (fun d k =>
            vSetElem f d k (leNat ((x.drop (if bit o 25 then 0 else k * es)).take es))) (vreg i (fd o))
          countEv (accessed (setV i (fd o) d)) (evClamps n.2)
        match meetRead (svuTouch b u) c u a len with
        | .ok b1 => retire b1 c u (put (loadedBytes b1 c i a len))
        | .refused b1 => retire b1 c u (countRefusal (put (List.replicate len 0)) a 6)
        | .tileFault b1 => b1

/-- VST (R148). -/
def vstEff (u : UnitId) (o : Ops) (b : Block) : Block :=
  issue b u (mkWord 8 0x02 o) (isTile u && legalVst o) fun c i =>
    let w := mkWord 8 0x02 o
    let f := vFmt o
    let n := vCount i f
    let es := fmtWidth f / 8
    let a := vAddr i o
    match badByte b c a (n.1 * es) with
    | some x => takeExc b c u 3 x w
    | none =>
      let x := (List.range n.1).flatMap fun k => leBytes es (vElem f (vreg i (fd o)) k)
      let b1 := storeBytes (svuTouch b u) c u a x
      retireAfter b1 c u w (countEv (img b1 c u) (evClamps n.2))

end Sys2Proof.Machine
end

