-- ==== Sys2Proof/Machine/TensorLane.lean ====
section
/-!
DEFINITION. Tensor instructions of the lane unit: CVT and its roll form (R58 to R70, R176), EWU, EWB, TRED (R177 to
R182), MSKP and MSKX (R183 to R185).
-/
namespace Sys2Proof.Machine

def tdOf (i : UnitImg) (o : Ops) : Desc × Nat := readDesc true (treg i (ft1 o))
def tsOf (i : UnitImg) (o : Ops) : Desc × Nat := readDesc false (treg i (ft2 o))
def tbOf (i : UnitImg) (o : Ops) : Desc × Nat := readDesc false (treg i (ft3 o))

/-- mode in [1:0], sat in [2], tensor_id in S1 and frame in S2. -/
def wmode (o : Ops) : WMode := { mode := modeOf (bits o 0 2), sat := bit o 2, tid := fs1 o, frame := fs2 o }

/-- Sources read, and what is read for the destination. -/
def readsOf (b : Block) (u : UnitId) (o : Ops) (m : WMode) (srcs : List (UnitImg → Ops → Desc × Nat)) (c : Nat)
    (i : UnitImg) : List (U64 × Nat) :=
  (srcs.flatMap fun f => sourceRanges b c i (f i o).1) ++ destReads b c u i (tdOf i o).1 m

/-! ### CVT -/

def cvtRun (u : UnitId) (o : Ops) (c : Nat) (i : UnitImg) (b : Block) : TOut × UnitImg :=
  let d := tdOf i o
  let s := tsOf i o
  let v := coverMin (extents d.1) (extents s.1)
  let out := writeView b c u i d.1 (wmode o) fun k =>
    if inCover v.1 k then let e := elemValue b c i s.1 k; some (.v e.1 false, e.2) else none
  (tOutAppend { ev := evClamps (d.2 + s.2 + v.2) } out, i)

def cvtEff (u : UnitId) (o : Ops) (b : Block) : Block :=
  tensorEff u 0x01 o (legalCvt o) noArray b (fun _ _ => none) (readsOf b u o (wmode o) [tsOf])
    (fun c i => destRanges b c i (tdOf i o).1) (cvtRun u o)

/-- The header bytes and slots of a scale record the roll works on. -/
structure Roll where
  hcur : Nat
  clean : Nat
  corr : Nat
  hist : Nat
  scale : Nat
deriving DecidableEq, Repr

/-- A history slot (R63). -/
structure Slot where
  step : Nat
  cexp : Int
  valid : Bool
deriving DecidableEq, Repr

def slotOf (h : List Byte) (j : Nat) : Slot :=
  let s := h.drop (0x40 + 16 * j)
  let ce := leNat ((s.drop 6).take 2)
  { step := leNat (s.take 6), cexp := if ce < 32768 then ce else (ce : Int) - 65536, valid := (s.getD 10 0).getLsbD 0 }

/-- The highest bin that is not zero, less 128; -32768 when none (R66). -/
def highBin (bins : List Byte) : Int :=
  (List.range 256).foldl (fun m j => if leNat ((bins.drop (8 * j)).take 8) = 0 then m else (j : Int) - 128) (-32768)

/-- The head-room update of R66, with the base head-room. -/
def rollHead (sat : Bool) (hb hcur clean corr : Nat) : Nat × Nat × Nat :=
  if sat then (max (min (hcur + 1) 7) hb, 0, corr + 1)
  else if clean + 1 = 64 then (max (if hcur > hb then hcur - 1 else hcur) hb, 0, corr)
  else (max hcur hb, clean + 1, corr)

/-- H2 of R398. [DEDUCED, log 31] -/
def scaleH : BitVec 128 := 0x2C6B91F0E3578A4D06B9D21E7F43C58A

/-- Σ X × H2^(1 + a ÷ 16) over the 16-byte chunks of bytes 0x000 to 0x13F (R398). -/
def scaleDigestOf (a : Nat) (h : List Byte) : BitVec 128 :=
  (List.range 20).foldl (fun s j =>
    s ^^^ gf128Mul (BitVec.ofNat 128 (leNat ((h.drop (16 * j)).take 16))) (gf128Pow scaleH (1 + (a + 16 * j) / 16))) 0

/-- Replace bytes of a list. -/
def patch (l : List Byte) (at_ : Nat) (x : List Byte) : List Byte := l.take at_ ++ x ++ l.drop (at_ + x.length)

/-- The roll of R66 on a record's 5 120 bytes: the new bytes, clamps, and whether it returned early.
[DEDUCED, log 31] -/
def rollBytes (h : List Byte) (tdFmt : Option Fmt) (s : Nat) : List Byte × Nat × Bool :=
  let byte (n : Nat) : Nat := (h.getD n 0).toNat
  let own := slotOf h (s % 16)
  if leNat ((h.drop 8).take 6) = s + 1 && own.step = s && own.valid then (h, 1, true)
  else
    let a := s % 2
    let cx := highBin ((h.drop (0x400 + 0x800 * a)).take 2048)
    let sat := leNat ((h.drop (0x140 + 0x20 * a)).take 8) != 0
    let hbase := byte 2 % 16
    let hb := if hbase = 0 then 2 else min hbase 8 - 1
    let c1 := if hbase > 8 then 1 else 0
    let f0 := fmtOfCode (byte 0)
    let c2 := if byte 0 > 6 then 1 else 0
    let fmt := if byte 0 > 6 then tdFmt else f0
    let hcur := byte 3 % 8
    let clean := byte 4
    let hist := byte 6
    let slot := leBytes 6 s ++ leBytes 2 (cx % 65536).toNat ++ [BitVec.ofNat 8 hcur, BitVec.ofNat 8 clean] ++
      [BitVec.ofNat 8 (1 + 2 * sat.toNat + 4 * (hist = 0 : Bool).toNat)] ++ leBytes 5 0
    let h1 := patch h (0x40 + 16 * (s % 16)) slot
    let r := rollHead sat hb hcur clean (leNat ((h.drop 0x18).take 8))
    let win := ((List.range 16).map (slotOf h1)).filter fun x =>
      x.valid && decide (x.step ≤ s) && decide (s < x.step + 16) && x.cexp != -32768
    let mx := win.foldl (fun m x => max m x.cexp) (-32768)
    let scale := match fmt with
      | some f => if win.isEmpty then byte 5 else (clampI (-127) 128 (mx + r.1 - fmtEf f) + 127).toNat
      | none => byte 5
    let h2 := patch h1 3 [BitVec.ofNat 8 r.1, BitVec.ofNat 8 r.2.1, BitVec.ofNat 8 scale, BitVec.ofNat 8 win.length]
    let h3 := patch (patch h2 8 (leBytes 8 ((s + 1) % 2 ^ 48))) 0x18 (leBytes 8 r.2.2)
    let h4 := patch (patch h3 (0x140 + 0x20 * a) (leBytes 32 0)) (0x400 + 0x800 * a) (leBytes 2048 0)
    (h4, c1 + c2, false)

/-- The record a roll closes, and its descriptor's clamps. With format 7 the record is rolled as well (R64, R66), so that
TD.SR is not ignored there and R83's clamp for it does not arise. [DEDUCED, log 31] -/
def rollRecord (i : UnitImg) (o : Ops) : U64 × Nat :=
  let d := tdOf i o
  let sr := BitVec.ofNat 64 (dbits (treg i (ft1 o)) 202 54 * 1024)
  (sr, if d.1.fmt.isNone && sr != 0 then d.2 - 1 else d.2)

/-- Roll a record (R66): a td of format 7 has its record rolled too, SR.SCALE unchanged (R64). [DEDUCED, log 31] -/
def rollRun (o : Ops) (c : Nat) (i : UnitImg) (b : Block) : TOut × UnitImg :=
  let d := rollRecord i o
  if d.1 = 0 then ({ ev := evClamps (d.2 + 1) }, i)
  else
    let h := readBytes b c i d.1 5120
    let r := rollBytes h (tdOf i o).1.fmt (ctxOf b c).step.toNat
    if r.2.2 then ({ ev := evClamps (d.2 + r.2.1) }, i)
    else
      ({ writes := [(d.1, 0, 8 * 5120, leNat r.1)], ev := evClamps (d.2 + r.2.1),
         digest := scaleDigestOf d.1.toNat r.1 }, i)

/-- CVT in roll form (R66); an unscaled descriptor has no record to close. -/
def rollEff (u : UnitId) (o : Ops) (b : Block) : Block :=
  let rec_ (_ : Nat) (i : UnitImg) : List (U64 × Nat) :=
    if (rollRecord i o).1 = 0 then [] else [((rollRecord i o).1, 5120)]
  tensorEff u 0x01 o (legalRoll o) noArray b (fun _ _ => none) rec_ rec_ (fun c i b => rollRun o c i b)

/-! ### Element-wise instructions -/

def wide (d : Desc) : Bool := match d.fmt with | some .f64 => true | none => true | _ => false

/-- The computation format of R177. -/
def compFmt (l : List Desc) : Fmt := if l.any wide then .f64 else .f32

/-- A result rounded once by nearest-even to the computation format (R177). -/
def compRound (f : Fmt) (r : FRes) : FVal × Ev :=
  (fdecode f (convertTo f .nearest false 0 0 r.v r.sticky).1, evOf false r.gen)

/-- A scalar g rounded to the computation format. -/
def scalarG (f : Fmt) (i : UnitImg) (r : Nat) : FVal :=
  (compRound f ⟨fdecode .f64 (freg i (BitVec.ofNat 5 r)).toNat, false, false⟩).1

/-- Dropout's threshold, clamped (R205). -/
def dropThr (x : U64) : Nat × Nat := if x.toNat ≤ 0xFFFF then (x.toNat, 0) else (0xFFFF, 1)

def ewuRun (u : UnitId) (o : Ops) (c : Nat) (i : UnitImg) (b : Block) : TOut × UnitImg :=
  let d := tdOf i o
  let s := tsOf i o
  let v := coverMin (extents d.1) (extents s.1)
  let cf := compFmt [d.1, s.1]
  let fn := bits o 3 5
  let g := scalarG cf i (bits o 8 5)
  let m := wmode o
  let drop := fn = 0x11
  let fr := readFrame b c u i (fs2 o) d.1
  let tid := tensorId (sreg i (fs1 o))
  let thr := dropThr (sreg i (fs3 o))
  let x := ctxOf b c
  let dropClamps : Nat :=
    if drop then thr.2 + (if writesStoch b c i d.1 m then 0 else fr.2 + tid.2) else 0
  let keep (k : Coord) : Bool :=
    decide (thr.1 ≤ streamBits x.seed (x.step.setWidth 64) (BitVec.ofNat 64 (tid.1 + 0x800000))
      (BitVec.ofNat 64 (elemIndex fr.1 k)))
  let out := writeView b c u i d.1 m fun k =>
    if inCover v.1 k then
      let e := elemValue b c i s.1 k
      let r := if drop then (if keep k then compRound cf (fMul e.1 g) else (fvZero, {}))
        else compRound cf (ewuFn fn e.1 g)
      some (.v r.1 false, evAdd e.2 r.2)
    else none
  (tOutAppend { ev := evClamps (d.2 + s.2 + v.2 + dropClamps) } out, i)

/-- Dropout reads the index frame in every mode. -/
def ewuReads (b : Block) (u : UnitId) (o : Ops) (c : Nat) (i : UnitImg) : List (U64 × Nat) :=
  readsOf b u o (wmode o) [tsOf] c i ++
    (if bits o 3 5 = 0x11 && !writesStoch b c i (tdOf i o).1 (wmode o) then frameReads b u i (fs2 o) else [])

def ewuEff (u : UnitId) (o : Ops) (b : Block) : Block :=
  tensorEff u 0x02 o (legalEwu o) noArray b (fun _ _ => none) (ewuReads b u o)
    (fun c i => destRanges b c i (tdOf i o).1) (ewuRun u o)

/-- The extent b covers on an axis, unless one sett (or plane) of it serves every position (R180). -/
def bcast (one : Bool) (eb ed : Nat) : Bool := one && decide (ed > eb)

/-- EWB's results; a broadcast operand from a seam is rounded, and its events counted, once for each result.
[DEDUCED, log 25] -/
def ewbRun (u : UnitId) (o : Ops) (c : Nat) (i : UnitImg) (b : Block) : TOut × UnitImg :=
  let d := tdOf i o
  let sa := tsOf i o
  let sb := tbOf i o
  let ed := extents d.1
  let va := coverMin ed (extents sa.1)
  let eb := extents sb.1
  let bx := bcast (sb.1.e0 == 1) eb.x ed.x
  let by_ := bcast (sb.1.e1 == 1) eb.y ed.y
  let bp := bcast (sb.1.e2 == 1) eb.p ed.p
  let bq := bcast (sb.1.e3 == 1) eb.q ed.q
  let vb := coverMin ed ⟨if bx then ed.x else eb.x, if by_ then ed.y else eb.y, if bp then ed.p else eb.p,
    if bq then ed.q else eb.q⟩
  let differ (x y z : Nat) : Nat := if x = y ∧ x = z then 0 else 1
  let clamps := differ ed.x (extents sa.1).x (if bx then ed.x else eb.x) +
    differ ed.y (extents sa.1).y (if by_ then ed.y else eb.y) +
    differ ed.p (extents sa.1).p (if bp then ed.p else eb.p) +
    differ ed.q (extents sa.1).q (if bq then ed.q else eb.q)
  let v := (coverMin va.1 vb.1).1
  let cf := compFmt [d.1, sa.1, sb.1]
  let g := scalarG cf i (bits o 8 5)
  let out := writeView b c u i d.1 (wmode o) fun k =>
    if inCover v k then
      let y := if by_ then k.y % 32 else k.y
      let kb : Coord := ⟨if bx then k.x % dCols sb.1 else k.x, if bit o 7 then y / 32 * 32 else y,
        if bp then 0 else k.p, if bq then 0 else k.q⟩
      let x := elemValue b c i sa.1 k
      let z := elemValue b c i sb.1 kb
      let r := compRound cf (ewbFn (bits o 3 4) x.1 z.1 g)
      some (.v r.1 false, evAdd (evAdd x.2 z.2) r.2)
    else none
  (tOutAppend { ev := evClamps (d.2 + sa.2 + sb.2 + clamps) } out, i)

def ewbEff (u : UnitId) (o : Ops) (b : Block) : Block :=
  tensorEff u 0x03 o (legalEwb o) noArray b (fun _ _ => none) (readsOf b u o (wmode o) [tsOf, tbOf])
    (fun c i => destRanges b c i (tdOf i o).1) (ewbRun u o)

/-! ### TRED -/

/-- Insert behind every entry that ranks at or below it: equal ranks keep their order. -/
def rankInsert (le : FVal → FVal → Bool) (x : FVal × Nat) : List (FVal × Nat) → List (FVal × Nat)
  | [] => [x]
  | y :: r => if le y.1 x.1 then y :: rankInsert le x r else x :: y :: r

/-- Values with their columns in the order of R38, reversed when `desc` is set (R182). [DEDUCED, log 27] -/
def rankSort (desc : Bool) (l : List FVal) : List (FVal × Nat) :=
  (l.zipIdx).foldl (fun acc x => rankInsert (fun a b => if desc then fTotalLe b a else fTotalLe a b) x acc) []

/-- The line of a result at a coordinate: its elements' coordinates (R181). [DEDUCED, log 27] -/
def lineCoords (axis : Nat) (s : Desc) (k : Coord) : List Coord :=
  if axis = 0 then (List.range (extX s)).map fun x => ⟨x, k.y, k.p, k.q⟩
  else if axis = 1 then (List.range (extY s)).map fun y => ⟨k.x, y, k.p, k.q⟩
  else (List.range (extY s)).flatMap fun y => (List.range (extX s)).map fun x => ⟨x, y, k.p, k.q⟩

def sumEvs (l : List (FVal × Ev)) : Ev := l.foldl (fun e v => evAdd e v.2) {}

/-- Reduce one line by an operation other than sort and top-k. The addends of a sum are the products x × 1, the 1 of one
slice (R43, R171). [DEDUCED, log 24] -/
def reduceLine (op : Nat) (f cf : Fmt) (vs : List (FVal × Ev)) : EVal × Ev :=
  let xs := vs.map fun v => v.1
  let ev := sumEvs vs
  if op = 0 then (.pass (arrayPass (xs.map fun x => .prod f .bf16 x (fdecode .bf16 0x3F80))), ev)
  else if op = 1 then (.pass (arrayPass (xs.map fun x => .prod f f x x)), ev)
  else
    let ys := if op = 4 then xs.map fAbs else xs
    let r := compRound cf ⟨ys.tail.foldl (if op = 3 then fMin else fMax) (ys.headD .nan), false, false⟩
    (.v r.1 false, evAdd ev r.2)

/-- k of top-k, clamped (R205). [DEDUCED, log 27] -/
def topK (l : Nat) (x : U64) : Nat × Nat :=
  let hi := min l 16384
  if x.toNat = 0 then (1, 1) else if x.toNat > hi then (hi, 1) else (x.toNat, 0)

/-- The fields of one execution of TRED. -/
structure TredCtx where
  op : Nat
  axis : Nat
  cf : Fmt
  /-- lines and planes covered, as a cover of result places -/
  lines : Cover
  /-- columns sort or top-k writes -/
  cols : Nat
  /-- columns of a row that take part -/
  part : Nat
  clamps : Nat
deriving DecidableEq, Repr

def tredCtx (o : Ops) (i : UnitImg) (d s : Desc) : TredCtx :=
  let op := bits o 3 3
  let axis := bits o 6 2
  let ne (a b : Nat) : Nat := if a = b then 0 else 1
  let part := min (extX s) 16384
  let k := topK (extX s) (sreg i (fs3 o))
  let cols := if op = 5 then min part (extX d) else if op = 6 then min k.1 (extX d) else 1
  { op := op, axis := axis, cf := compFmt [d, s]
    lines := ⟨if axis = 1 then min (extX s) (extX d) else cols, if axis = 0 then min (extY s) (extY d) else 1,
      min s.e2 d.e2, min s.e3 d.e3⟩
    cols := cols, part := part
    clamps := ne s.e2 d.e2 + ne s.e3 d.e3 + (if axis = 0 then ne (extY s) (extY d) else 0) +
      (if axis = 1 then ne (extX s) (extX d) else 0) + (if op = 5 then ne (extX s) (extX d) else 0) +
      (if op ≥ 5 ∧ extX s > 16384 then 1 else 0) + (if op = 6 then k.2 else 0) }

/-- A sett of td receives a result. -/
def tredSett (t : TredCtx) (d : Desc) (k : Coord) : Bool :=
  decide (k.x / dCols d ≤ (t.lines.x - 1) / dCols d) && decide (k.y / 32 ≤ (t.lines.y - 1) / 32) &&
    decide (k.p < t.lines.p) && decide (k.q < t.lines.q)

/-- A row's chosen elements in the order of R182. -/
def tredRank (b : Block) (c : Nat) (i : UnitImg) (o : Ops) (s : Desc) (t : TredCtx) (k : Coord) :
    List (FVal × Nat) × Ev :=
  let vs := ((List.range t.part).map fun x => elemValue b c i s ⟨x, k.y, k.p, k.q⟩)
  (rankSort (bit o 8) (vs.map fun v => v.1), sumEvs vs)

def tredValue (b : Block) (c : Nat) (i : UnitImg) (o : Ops) (d s : Desc) (t : TredCtx) (k : Coord) :
    Option (EVal × Ev) :=
  if !tredSett t d k then none
  else if !inCover t.lines k then some (.v fvZero false, {})
  else if t.op ≥ 5 then
    let r := tredRank b c i o s t k
    let v := compRound t.cf ⟨(r.1.getD k.x (.nan, 0)).1, false, false⟩
    some (.v v.1 false, evAdd (if k.x = 0 then r.2 else {}) v.2)
  else some (reduceLine t.op (elemFmt s) t.cf ((lineCoords t.axis s k).map (elemValue b c i s)))

/-- Where top-k writes its column indices: offset and clamp (R182, R205). -/
def topkOffset (i : UnitImg) (o : Ops) : Nat × Nat := sramOffset 4 0x17FFFC (sreg i (fs4 o))

/-- The column indices top-k writes, those of rows whose destination sett the map disables among them: they go to tile
SRAM, to no sett. [DEDUCED, log 27] -/
def topkWrites (b : Block) (c : Nat) (u : UnitId) (i : UnitImg) (o : Ops) (s : Desc) (t : TredCtx) :
    List (U64 × Nat × Nat × Nat) :=
  let kk := (topK (extX s) (sreg i (fs3 o))).1
  ((List.range t.lines.q).flatMap fun q => (List.range t.lines.p).flatMap fun p =>
    (List.range t.lines.y).flatMap fun y =>
      ((tredRank b c i o s t ⟨0, y, p, q⟩).1.take kk).zipIdx.map fun e =>
        (sramAddr b u ((topkOffset i o).1 + 4 * (y * kk + e.2)), 0, 32, e.1.2))

/-- The array forms a group of 3 072 lines of a sum at a time (R111, R171): the group of a result's line. -/
def tredGroup (t : TredCtx) (k : Coord) : Nat :=
  (((k.q * t.lines.p + k.p) * t.lines.y + k.y) * t.lines.x + k.x) / 3072

def tredGroups (o : Ops) (i : UnitImg) : Nat :=
  let t := tredCtx o i (tdOf i o).1 (tsOf i o).1
  if bits o 3 3 ≤ 1 then (t.lines.q * t.lines.p * t.lines.y * t.lines.x + 3071) / 3072 else 0

/-- TRED, of the results that `keep` names. -/
def tredPart (keep : TredCtx → Coord → Bool) (u : UnitId) (o : Ops) (c : Nat) (i : UnitImg) (b : Block) : TOut × UnitImg :=
  let d := tdOf i o
  let s := tsOf i o
  let t := tredCtx o i d.1 s.1
  let out := writeView b c u i d.1 (wmode o) fun k => if keep t k then tredValue b c i o d.1 s.1 t k else none
  let idx := if t.op = 6 then topkWrites b c u i o s.1 t else []
  let ic := if t.op = 6 then (topkOffset i o).2 else 0
  (tOutAppend (tOutAppend { ev := evClamps (d.2 + s.2 + t.clamps + ic) } out) { writes := idx }, i)

def tredRun := tredPart fun _ _ => true

/-- A sum as an array instruction. -/
def tredArray (u : UnitId) (o : Ops) : ArrayOp :=
  { blocks := tredGroups o, part := fun n => tredPart (fun t k => decide (tredGroup t k < n)) u o }

def tredEff (u : UnitId) (o : Ops) (b : Block) : Block :=
  tensorEff u 0x04 o (legalTred o) (tredArray u o) b (fun _ _ => none) (readsOf b u o (wmode o) [tsOf])
    (fun c i => destRanges b c i (tdOf i o).1 ++
      (if bits o 3 3 = 6 then
        let kk := (topK (extX (tsOf i o).1) (sreg i (fs3 o))).1
        let y := min (extY (tsOf i o).1) (extY (tdOf i o).1)
        [(sramAddr b u (topkOffset i o).1, 4 * kk * y)] else [])) (tredRun u o)

/-! ### Mask packs -/

/-- Bytes of a sett's pack (R183). -/
def packBytes (d : Desc) : Nat := settElems d / 8

/-- The pack address, its low bits clamped (R205). -/
def packAddr (i : UnitImg) (o : Ops) : U64 × Nat := clearLow 2 (sreg i (fs1 o))

def packRange (i : UnitImg) (o : Ops) (d : Desc) : U64 × Nat := ((packAddr i o).1, settCount d * packBytes d)

/-- The predicate of MSKP (R184). -/
def maskPred (p : Nat) (g x : FVal) : Bool :=
  if p = 0 then !fIsNan x && fLt fvZero x
  else if p = 1 then !fIsNan x && fSign x
  else if p = 2 then (match fCmp (fAbs x) g with | some .gt => false | some _ => true | none => false)
  else fIsNan x || !fIsZero x

def mskpRun (o : Ops) (c : Nat) (i : UnitImg) (b : Block) : TOut × UnitImg :=
  let s := tsOf i o
  let g := scalarG (compFmt [s.1]) i (bits o 2 5)
  let a := packAddr i o
  let bytes := (List.range (settCount s.1)).flatMap fun n => (List.range (packBytes s.1)).map fun j =>
    let vs := (List.range 8).map fun t => elemValue b c i s.1 (coordAt s.1 n (8 * j + t))
    let v := (vs.zipIdx.map fun x => (maskPred (bits o 0 2) g x.1.1).toNat * 2 ^ x.2).foldl (· + ·) 0
    ((addrAdd a.1 (n * packBytes s.1 + j), 0, 8, v), sumEvs vs)
  ({ writes := bytes.map Prod.fst, ev := evAdd (evClamps (s.2 + a.2)) ((bytes.map Prod.snd).foldl evAdd {}) }, i)

def mskpEff (u : UnitId) (o : Ops) (b : Block) : Block :=
  tensorEff u 0x05 o (legalMskp o) noArray b (fun _ _ => none) (fun c i => sourceRanges b c i (tsOf i o).1)
    (fun _ i => [packRange i o (tsOf i o).1]) (fun c i b => mskpRun o c i b)

/-- The mask bit of an element of a view. -/
def packBit (b : Block) (c : Nat) (i : UnitImg) (a : U64) (d : Desc) (k : Coord) : Bool :=
  let j := storageAt d k
  (readByte b c i (addrAdd a (settAt d k * packBytes d + j / 8))).getLsbD (j % 8)

def mskxMode (o : Ops) : WMode := { mode := modeOf (bits o 0 2), sat := bit o 2, tid := fs2 o, frame := fs3 o }

def mskxRun (u : UnitId) (o : Ops) (c : Nat) (i : UnitImg) (b : Block) : TOut × UnitImg :=
  let d := tdOf i o
  let s := tsOf i o
  let v := coverMin (extents d.1) (extents s.1)
  let cf := compFmt [d.1, s.1]
  let g1 := scalarG cf i (bits o 3 5)
  let g0 := scalarG cf i (bits o 8 5)
  let a := packAddr i o
  let out := writeView b c u i d.1 (mskxMode o) fun k =>
    if inCover v.1 k then
      let e := elemValue b c i s.1 k
      let r := compRound cf (fMul e.1 (if packBit b c i a.1 s.1 k then g1 else g0))
      some (.v r.1 false, evAdd e.2 r.2)
    else none
  (tOutAppend { ev := evClamps (d.2 + s.2 + v.2 + a.2) } out, i)

def mskxEff (u : UnitId) (o : Ops) (b : Block) : Block :=
  tensorEff u 0x06 o (legalMskx o) noArray b (fun _ _ => none)
    (fun c i => readsOf b u o (mskxMode o) [tsOf] c i ++ [packRange i o (tsOf i o).1])
    (fun c i => destRanges b c i (tdOf i o).1) (mskxRun u o)

end Sys2Proof.Machine
end

