-- ==== Sys2Proof/Machine/TensorMma.lean ====
section
/-!
DEFINITION. The tally buffer's seam space (R120 to R122), tally entries (R190, R191) and MMA (R172 to R175).
-/
namespace Sys2Proof.Machine

/-! ### Seam space -/

/-- Seams that open tie entries hold. -/
def seamsHeld (i : UnitImg) : Nat := (i.ties.map fun e => e.2.count).foldl (· + ·) 0

/-- The pool of 3 072 slots and the spill area of 65 536 seams cannot hold `n` more (R122). -/
def seamsLack (i : UnitImg) (n : Nat) : Bool := decide (seamsHeld i + n > 3072 + 65536)

/-- Seams of `n` more that lie in the spill area: counted in POOL_SPILL (R121, R131). -/
def spillCount (i : UnitImg) (n : Nat) : Nat := (seamsHeld i + n - 3072) - (seamsHeld i - 3072)

/-- An instruction's products with the seams it holds in the spill area. -/
def spilled (i : UnitImg) (n : Nat) (r : TOut × UnitImg) : TOut × UnitImg :=
  ({ r.1 with spill := spillCount i n, spillFrom := seamsHeld i - 3072 }, r.2)

/-! ### Tally entries -/

/-- An entry's element number for a coordinate. -/
def tieIndex (d : Desc) (k : Coord) : Nat := ((k.q * d.e2 + k.p) * extY d + k.y) * extX d + k.x

def elemTotal (d : Desc) : Nat := settCount d * settElems d

/-- Every coordinate of a view. -/
def allCoords (v : Cover) : List Coord :=
  (List.range v.q).flatMap fun q => (List.range v.p).flatMap fun p => (List.range v.y).flatMap fun y =>
    (List.range v.x).map fun x => ⟨x, y, p, q⟩

/-- The use count, clamped (R205). -/
def useCount (x : U64) : Nat × Nat := if x.toNat = 0 then (1, 1) else if x.toNat > 65535 then (65535, 1) else (x.toNat, 0)

def openTie (i : UnitImg) (h : Nat) (e : TieEntry) : UnitImg := { i with ties := tins i.ties h e }

/-- TIE form 0 (R190): an open handle's old entry is discarded with one clamp. -/
def tieOpenEff (u : UnitId) (o : Ops) (b : Block) : Block :=
  let need (i : UnitImg) : Nat := elemTotal (tdOf i o).1
  let rest (i : UnitImg) : UnitImg := { i with ties := tdel i.ties (bits o 2 6) }
  tensorEff u 0x0E o (legalTieOpen o) noArray b
    (fun _ i => if seamsLack (rest i) (need i) then some (7, 0) else none) (fun _ _ => []) (fun _ _ => [])
    fun _ i _ => spilled (rest i) (need i) <|
      let d := tdOf i o
      let n := useCount (sreg i (fs1 o))
      let was : Nat := if (tlook i.ties (bits o 2 6)).isSome then 1 else 0
      ({ ev := evClamps (d.2 + n.2 + was) },
       openTie (rest i) (bits o 2 6)
         { td := treg i (ft1 o), want := n.1, got := 0, count := elemTotal d.1, seams := [] })

/-- The entry with one contribution added at a coordinate. -/
def tieAdd (d : Desc) (e : TieEntry) (k : Coord) (f : Seam → Seam) : TieEntry :=
  let n := tieIndex d k
  { e with seams := tput e.seams seamEmpty n (f (tget e.seams seamEmpty n)) }

/-- TIE form 1 (R190): each element enters its entry seam exactly; a closed handle counts one clamp. -/
def tieAddRun (o : Ops) (c : Nat) (i : UnitImg) (b : Block) : TOut × UnitImg :=
  match tlook i.ties (bits o 2 6) with
  | none => ({ ev := evClamps 1 }, i)
  | some e =>
    let d := (readDesc true e.td).1
    let s := tsOf i o
    let v := coverMin (extents d) (extents s.1)
    let e1 := (allCoords v.1).foldl (fun e k =>
      tieAdd d e k fun x => match s.1.fmt with
        | some _ => seamAdd (elemValue b c i s.1 k).1 x
        | none => seamMerge (elemSeam b c i s.1 k) x) e
    ({ ev := evClamps (s.2 + v.2) }, openTie i (bits o 2 6) { e1 with got := e1.got + 1 })

/-- [DEDUCED, log 23] -/
def tieAddEff (u : UnitId) (o : Ops) (b : Block) : Block :=
  tensorEff u 0x0E o (legalTieAdd o) noArray b (fun _ _ => none)
    (fun c i => if (tlook i.ties (bits o 2 6)).isSome then sourceRanges b c i (tsOf i o).1 else []) (fun _ _ => [])
    (fun c i b => tieAddRun o c i b)

/-- The handle's descriptor at TIEX. -/
def tiexDesc (i : UnitImg) (o : Ops) : Option (Desc × TieEntry) :=
  (tlook i.ties (bits o 3 6)).map fun e => ((readDesc true e.td).1, e)

def tiexRun (u : UnitId) (o : Ops) (c : Nat) (i : UnitImg) (b : Block) : TOut × UnitImg :=
  match tiexDesc i o with
  | none => ({ ev := evClamps 1 }, i)
  | some (d, e) =>
    let out := writeView b c u i d (wmode o) fun k => some (.seam (tget e.seams seamEmpty (tieIndex d k)), {})
    (tOutAppend { ev := evClamps (if e.got = e.want then 0 else 1) } out, { i with ties := tdel i.ties (bits o 3 6) })

/-- TIEX (R191): writes each entry seam through the write path, frees the slots and closes the handle. -/
def tiexEff (u : UnitId) (o : Ops) (b : Block) : Block :=
  tensorEff u 0x0F o (legalTiex o) noArray b (fun _ _ => none)
    (fun c i => match tiexDesc i o with | some x => destReads b c u i x.1 (wmode o) | none => [])
    (fun c i => match tiexDesc i o with | some x => destRanges b c i x.1 | none => []) (tiexRun u o)

/-! ### MMA -/

/-- The shape one MMA computes (R172), with its clamps. -/
structure MmaShape where
  m : Nat
  n : Nat
  k : Nat
  p : Nat
  q : Nat
  clamps : Nat
deriving DecidableEq, Repr

/-- The planes D has and a source serves: extent 1 serves every plane. -/
def servePlanes (d s : Nat) : Nat × Nat := if s = 1 ∨ s = d then (d, 0) else (min d s, 1)

def mmaShape (o : Ops) (d a b : Desc) : MmaShape :=
  let am := if bit o 2 then extX a else extY a
  let ak := if bit o 2 then extY a else extX a
  let bk := if bit o 3 then extX b else extY b
  let bn := if bit o 3 then extY b else extX b
  let ne (x y : Nat) : Nat := if x = y then 0 else 1
  let pa := servePlanes d.e2 a.e2
  let pb := servePlanes d.e2 b.e2
  let qa := servePlanes d.e3 a.e3
  let qb := servePlanes d.e3 b.e3
  { m := min am (extY d), n := min bn (extX d), k := min ak bk, p := min pa.1 pb.1, q := min qa.1 qb.1
    clamps := ne am (extY d) + ne bn (extX d) + ne ak bk + max pa.2 pb.2 + max qa.2 qb.2 }

/-- [DEDUCED, log 25] -/
def mmaA (o : Ops) (a : Desc) (m k : Nat) (c : Coord) : Coord :=
  let p := if a.e2 = 1 then 0 else c.p
  let q := if a.e3 = 1 then 0 else c.q
  if bit o 2 then ⟨m, k, p, q⟩ else ⟨k, m, p, q⟩

/-- [DEDUCED, log 25] -/
def mmaB (o : Ops) (b : Desc) (k n : Nat) (c : Coord) : Coord :=
  let p := if b.e2 = 1 then 0 else c.p
  let q := if b.e3 = 1 then 0 else c.q
  if bit o 3 then ⟨k, n, p, q⟩ else ⟨n, k, p, q⟩

/-- The products k0 to k0 + len - 1 of an output element; each use of a seam operand rounds it and counts its events anew.
[DEDUCED, log 25] -/
def mmaProducts (bl : Block) (ctx : Nat) (i : UnitImg) (o : Ops) (a b : Desc) (c : Coord) (k0 len : Nat) :
    List (Addend × Ev) :=
  (List.range len).map fun j =>
    let x := elemValue bl ctx i a (mmaA o a c.y (k0 + j) c)
    let y := elemValue bl ctx i b (mmaB o b (k0 + j) c.x c)
    (.prod (elemFmt a) (elemFmt b) x.1 y.1, evAdd x.2 y.2)

def addendEvs (l : List (Addend × Ev)) : Ev := l.foldl (fun e x => evAdd e x.2) {}

/-- Q, clamped (R174, R205): 0 means K. -/
def quantum (k : Nat) (x : U64) : Nat × Nat :=
  if x.toNat = 0 then (k, 0) else if x.toNat > k then (k, 1) else (x.toNat, 0)

/-- The quantum windows of an element enter a seam one after another (R47, R174). -/
def mmaSeam (bl : Block) (ctx : Nat) (i : UnitImg) (o : Ops) (a b : Desc) (sh : MmaShape) (q : Nat) (c : Coord)
    (start : Seam) : Seam × Ev :=
  (List.range ((sh.k + q - 1) / q)).foldl (fun s j =>
    let l := mmaProducts bl ctx i o a b c (j * q) (min q (sh.k - j * q))
    let r := passSeam (arrayPass (l.map fun x => x.1)) s.1
    (r.1, evAdd s.2 (evAdd r.2 (addendEvs l)))) (start, {})

/-- The array's blocks of 64 rows by 48 columns, in row-major order, plane by plane (R111). -/
def mmaBlocks (sh : MmaShape) : Nat := sh.q * sh.p * ((sh.m + 63) / 64) * ((sh.n + 47) / 48)

def mmaBlockOf (sh : MmaShape) (k : Coord) : Nat :=
  ((k.q * sh.p + k.p) * ((sh.m + 63) / 64) + k.y / 64) * ((sh.n + 47) / 48) + k.x / 48

def mmaCover (sh : MmaShape) : Cover := ⟨sh.n, sh.m, sh.p, sh.q⟩

/-- The output code in force: output 2 into a view that is not a seam view takes output 1, with one clamp (R173). -/
def mmaOut (o : Ops) (d : Desc) : Nat × Nat :=
  if bits o 5 2 = 2 ∧ d.fmt.isSome then (1, 1) else (bits o 5 2, 0)

def mmaMode (o : Ops) : WMode := { mode := modeOf (bits o 0 2), sat := bit o 7, tid := fs2 o, frame := fs3 o }

/-- The seam of MMA output 1 as a value for the write path (R169). -/
def seamForWrite (d : Desc) (s : Seam) : FVal × Ev := seamRound (if d.fmt = some .f64 then .f64 else .f32) s

/-- MMA, of its first `lim` blocks where a limit is given. -/
def mmaPart (lim : Option Nat) (u : UnitId) (o : Ops) (c : Nat) (i : UnitImg) (b : Block) : TOut × UnitImg :=
  let d := tdOf i o
  let ta := tsOf i o
  let tb := tbOf i o
  let sh := mmaShape o d.1 ta.1 tb.1
  let ou := mmaOut o d.1
  let q := quantum sh.k (sreg i (fs1 o))
  let head : TOut :=
    { ev := evClamps (d.2 + ta.2 + tb.2 + sh.clamps + ou.2 + (if ou.1 = 0 then 0 else q.2)) }
  let v := mmaCover sh
  let done (k : Coord) : Bool := match lim with | some n => decide (mmaBlockOf sh k < n) | none => true
  if ou.1 = 0 then
    let out := writeView b c u i d.1 (mmaMode o) fun k =>
      if inCover v k && done k then
        let l := mmaProducts b c i o ta.1 tb.1 k 0 sh.k
        let prev := elemValue b c i d.1 k
        let acc := if bit o 4 then [Addend.one (elemFmt d.1) prev.1] else []
        some (.pass (arrayPass (l.map (fun x => x.1) ++ acc)),
          evAdd (addendEvs l) (if bit o 4 then prev.2 else {}))
      else none
    (tOutAppend head out, i)
  else if ou.1 = 1 then
    let out := writeView b c u i d.1 (mmaMode o) fun k =>
      if inCover v k && done k then
        let s := mmaSeam b c i o ta.1 tb.1 sh q.1 k seamEmpty
        let prev := elemValue b c i d.1 k
        let s1 := if bit o 4 then (seamAdd prev.1 s.1, evAdd s.2 prev.2) else s
        let r := seamForWrite d.1 s1.1
        some (.v r.1 false, evAdd s1.2 r.2)
      else none
    (tOutAppend head out, i)
  else if ou.1 = 2 then
    let ks := (allCoords v).filter fun k => done k && wemBit b c u d.1 (settAt d.1 k)
    let ss := ks.map fun k => ((elemAddr d.1 k).1, mmaSeam b c i o ta.1 tb.1 sh q.1 k seamEmpty)
    (tOutAppend head
      { seams := ss.map fun x => (x.1, x.2.1), ev := evAdd (evClamps (wemClamp d.1)) (ss.foldl (fun e x => evAdd e x.2.2) {}) },
     i)
  else
    match tlook i.ties (bits o 8 6) with
    | none => ({ ev := evClamps 1 }, i)
    | some e =>
      let ed := (readDesc true e.td).1
      let w := coverMin (extents ed) v
      let ks := (allCoords w.1).filter fun k => done k && wemBit b c u d.1 (settAt d.1 k)
      let r := ks.foldl (fun (x : TieEntry × Ev) k =>
        let n := tieIndex ed k
        let s := mmaSeam b c i o ta.1 tb.1 sh q.1 k (tget x.1.seams seamEmpty n)
        ({ x.1 with seams := tput x.1.seams seamEmpty n s.1 }, evAdd x.2 s.2)) (e, {})
      (tOutAppend head { ev := evAdd (evClamps (w.2 + wemClamp d.1)) r.2 },
       openTie i (bits o 8 6) { r.1 with got := r.1.got + lim.isNone.toNat })

def mmaRun := mmaPart none

/-- MMA as an array instruction. -/
def mmaArray (u : UnitId) (o : Ops) : ArrayOp :=
  { blocks := fun i => mmaBlocks (mmaShape o (tdOf i o).1 (tsOf i o).1 (tbOf i o).1), part := fun n => mmaPart (some n) u o }

/-- Pool seams MMA reserves (R122): outputs 1 and 2 take one block's worth. -/
def mmaNeed (i : UnitImg) (o : Ops) : Nat :=
  let ou := (mmaOut o (tdOf i o).1).1
  if ou = 1 ∨ ou = 2 then 3072 else 0

def mmaEff (u : UnitId) (o : Ops) (b : Block) : Block :=
  tensorEff u 0x00 o (legalMma o) (mmaArray u o) b
    (fun _ i => if seamsLack i (mmaNeed i o) then some (7, 0) else none)
    (fun c i => sourceRanges b c i (tsOf i o).1 ++ sourceRanges b c i (tbOf i o).1 ++
      (if bit o 4 then viewRanges (tdOf i o).1 else []) ++ destReads b c u i (tdOf i o).1 (mmaMode o))
    (fun c i => if bits o 5 2 = 3 then [] else destRanges b c i (tdOf i o).1)
    fun c i b => spilled i (mmaNeed i o) (mmaRun u o c i b)

end Sys2Proof.Machine
end

