-- ==== Sys2Proof/Machine/TensorCopy.lean ====
section
/-!
DEFINITION. Copies and coordinate lists (R87 to R98): TXP, MOVB, GTH, SCT, SCTA; and the spoil heap (R187 to R189).
Every source is read as it stood before any destination is written (R97).
-/
namespace Sys2Proof.Machine

/-- The destination of a copy in the source's format (R93), with the clamp a different format counts. Its scale record
stands as its own descriptor gave it, but into a seam format none does (R83). [DEDUCED, log 28] -/
def copyDest (i : UnitImg) (o : Ops) : Desc × Nat :=
  let d := tdOf i o
  let s := tsOf i o
  if d.1.fmt = s.1.fmt then d
  else ({ d.1 with fmt := s.1.fmt, sr := if s.1.fmt.isNone then 0 else d.1.sr }, d.2 + 1)

/-- The record of a view that is in block mode by SR.MODE and has a block scale array (R93, R96). [DEDUCED, log 28] -/
def blockRecord (b : Block) (c : Nat) (i : UnitImg) (d : Desc) : Option Scale :=
  if d.sr = 0 then none
  else
    let s := readScale b c i d.sr
    if s.mode && s.blocks != 0 then some s else none

/-- Both records, where the copy carries block scales (R93): the destination's and the source's. -/
def carried (b : Block) (c : Nat) (i : UnitImg) (d s : Desc) : Option (Scale × Scale) :=
  match blockRecord b c i d, blockRecord b c i s with
  | some rd, some rs => some (rd, rs)
  | _, _ => none

/-- Copy one sett with its block scale bytes where both views carry them (R93). [DEDUCED, log 28] -/
def copySett (b : Block) (c : Nat) (i : UnitImg) (d s : Desc) (dn sn : Nat) : List (U64 × Nat × Nat × Nat) :=
  let body := ((settRange d dn).1, 0, 8 * 2048, leNat (readBytes b c i (settRange s sn).1 2048))
  match carried b c i d s with
  | some (rd, rs) =>
    body :: (List.range (settBlocks d)).map fun j =>
      (blockAddr d rd dn j, 0, 8, (readByte b c i (blockAddr s rs sn j)).toNat)
  | none => [body]

/-- Copy setts (destination, source) that the destination's map enables, in order. -/
def copySetts (b : Block) (c : Nat) (u : UnitId) (i : UnitImg) (d s : Desc) (l : List (Nat × Nat)) : TOut :=
  { writes := (l.filter fun x => wemBit b c u d x.1).flatMap fun x => copySett b c i d s x.1 x.2
    ev := evClamps (wemClamp d) }

/-- The scale record of a view that a copy looks at. -/
def recordRange (d : Desc) : List (U64 × Nat) := if d.sr = 0 then [] else [(d.sr, 5120)]

/-- A view's block scale array. -/
def scaleArray (d : Desc) (s : Scale) : U64 × Nat := (s.blocks, settCount d * settBlocks d)

/-- What a copy writes: the destination's setts and, where it carries block scales, its array. -/
def copyRanges (b : Block) (o : Ops) (c : Nat) (i : UnitImg) : List (U64 × Nat) :=
  let d := (copyDest i o).1
  viewRanges d ++ (match carried b c i d (tsOf i o).1 with | some r => [scaleArray d r.1] | none => [])

/-- What a copy reads: the source's setts, both records, the scales it carries, and the destination's map. -/
def copyReads (b : Block) (u : UnitId) (o : Ops) (c : Nat) (i : UnitImg) : List (U64 × Nat) :=
  let d := (copyDest i o).1
  let s := (tsOf i o).1
  viewRanges s ++ recordRange s ++ recordRange d ++
    (match carried b c i d s with | some r => [scaleArray s r.2] | none => []) ++ mapReads b u d

def movbRun (u : UnitId) (o : Ops) (c : Nat) (i : UnitImg) (b : Block) : TOut × UnitImg :=
  let d := copyDest i o
  let s := tsOf i o
  let cl : Nat := if d.1.e0 = s.1.e0 ∧ d.1.e1 = s.1.e1 ∧ d.1.e2 = s.1.e2 ∧ d.1.e3 = s.1.e3 then 0 else 1
  let pairs := (List.range (settCount d.1)).filterMap fun n =>
    let k := settOf d.1 n
    if k.1 < s.1.e0 ∧ k.2.1 < s.1.e1 ∧ k.2.2.1 < s.1.e2 ∧ k.2.2.2 < s.1.e3 then
      some (n, settIndex s.1 k.1 k.2.1 k.2.2.1 k.2.2.2)
    else none
  (tOutAppend { ev := evClamps (d.2 + s.2 + cl) } (copySetts b c u i d.1 s.1 pairs), i)

def movbEff (u : UnitId) (o : Ops) (b : Block) : Block :=
  tensorEff u 0x08 o (legalCopy o) noArray b (fun _ _ => none) (copyReads b u o) (copyRanges b o) (movbRun u o)

/-! ### TXP -/

/-- What TXP reads: its destination too, for the codes of blocks it covers in part. -/
def txpReads (b : Block) (u : UnitId) (o : Ops) (c : Nat) (i : UnitImg) : List (U64 × Nat) :=
  copyReads b u o c i ++ viewRanges (copyDest i o).1 ++
    (match carried b c i (copyDest i o).1 (tsOf i o).1 with | some r => [scaleArray (copyDest i o).1 r.1] | none => [])

/-- One block of a transpose between block-mode views (R96). -/
def txpBlock (b : Block) (c : Nat) (i : UnitImg) (f : Fmt) (d s : Desc) (rd rs : Scale) (v : Cover) (n blk : Nat) :
    List (U64 × Nat × Nat × Nat) :=
  let ks := (List.range 256).map fun j => coordAt d n (blk * 256 + j)
  let src (k : Coord) : Coord := ⟨k.y, k.x, k.p, k.q⟩
  let code (k : Coord) : Nat := (readByte b c i (blockAddr s rs (settAt s (src k)) (storageAt s (src k) / 256))).toNat
  let cov := ks.filter (inCover v)
  if cov.isEmpty then []
  else
    let prev := (readByte b c i (blockAddr d rd n blk)).toNat
    let top := (cov.map code).foldl max (if cov.length = 256 then 0 else prev)
    let re (x from_ : Nat) : Nat :=
      if from_ = top then x
      else (convertTo f .nearest false 0 0 (fScale ((from_ : Int) - top) (fdecode f x)) false).1
    (blockAddr d rd n blk, 0, 8, top) ::
      ks.filterMap fun k =>
        let a := elemAddr d k
        if inCover v k then some (a.1, a.2, fmtWidth f, re (elemCode b c i s (src k)) (code k))
        else if top > prev then some (a.1, a.2, fmtWidth f, re (elemCode b c i d k) prev)
        else none

def txpRun (u : UnitId) (o : Ops) (c : Nat) (i : UnitImg) (b : Block) : TOut × UnitImg :=
  let d := copyDest i o
  let s := tsOf i o
  let ex := extents s.1
  let v := coverMin (extents d.1) ⟨ex.y, ex.x, ex.p, ex.q⟩
  let setts := (List.range (settCount d.1)).filter fun n => wemBit b c u d.1 n
  let ws := setts.flatMap fun n =>
    match d.1.fmt, carried b c i d.1 s.1 with
    | some f, some (rd, rs) =>
      (List.range (settBlocks d.1)).flatMap fun blk => txpBlock b c i f d.1 s.1 rd rs v.1 n blk
    | _, _ =>
      ((List.range (settElems d.1)).map (coordAt d.1 n)).filterMap fun k =>
        if inCover v.1 k then
          let a := elemAddr d.1 k
          some (a.1, a.2, dWidth d.1, elemCode b c i s.1 ⟨k.y, k.x, k.p, k.q⟩)
        else none
  ({ writes := ws, ev := evClamps (d.2 + s.2 + (if v.2 = 0 then 0 else 1) + wemClamp d.1) }, i)

def txpEff (u : UnitId) (o : Ops) (b : Block) : Block :=
  tensorEff u 0x07 o (legalCopy o) noArray b (fun _ _ => none) (txpReads b u o) (copyRanges b o) (txpRun u o)

/-! ### Coordinate lists -/

/-- The list offset, clamped (R205). -/
def listOffset (i : UnitImg) (o : Ops) : Nat × Nat :=
  let x := (sreg i (fs1 o)).toNat
  (x / 8 * 8, if x % 8 = 0 then 0 else 1)

/-- The list length, clamped to the setts of the side in sett order (R92). -/
def listLength (i : UnitImg) (o : Ops) (setts : Nat) : Nat × Nat :=
  let x := (sreg i (fs2 o)).toNat
  if x ≤ setts then (x, 0) else (setts, 1)

/-- A signed 32-bit coordinate clamped to an extent (R88). -/
def clampCoord (x ext : Nat) : Nat × Bool :=
  if x ≥ 2 ^ 31 then (0, true) else if x ≥ ext then (ext - 1, true) else (x, false)

/-- Entry `j` of a list over a view: the sett it names, and whether it was clamped (R87, R88). -/
def listEntry (b : Block) (c : Nat) (u : UnitId) (d : Desc) (off j : Nat) : Nat × Bool :=
  let w (t : Nat) : Nat := leNat (rdSram b c (tileNo u) (off + 8 * j + t) 4)
  let r := clampCoord (w 0) d.e1
  let k := clampCoord (w 4) d.e0
  (settIndex d k.1 r.1 0 0, r.2 || k.2)

/-- A list of length 0: the instruction does nothing, and counts nothing (R92, R153). [DEDUCED, log 28] -/
def listEmpty (i : UnitImg) (o : Ops) : Bool := sreg i (fs2 o) == 0

/-- The list's bytes; of a list of length 0 the instruction uses no address at all. -/
def listReads (b : Block) (u : UnitId) (i : UnitImg) (o : Ops) (setts : Nat) : List (U64 × Nat) :=
  sramPart b u (listOffset i o).1 (8 * (listLength i o setts).1)

/-- What an instruction does unless its list is empty. -/
def ofList (o : Ops) (i : UnitImg) (r : TOut × UnitImg) : TOut × UnitImg := if listEmpty i o then ({}, i) else r
def rangesOfList (o : Ops) (i : UnitImg) (rs : List (U64 × Nat)) : List (U64 × Nat) := if listEmpty i o then [] else rs

/-- The entries of a list and the clamps of its operands, of its entries, and of bytes beyond tile SRAM (R92). -/
def readList (b : Block) (c : Nat) (u : UnitId) (i : UnitImg) (o : Ops) (d : Desc) (setts : Nat) : List Nat × Nat :=
  let off := listOffset i o
  let n := listLength i o setts
  let es := (List.range n.1).map fun j => listEntry b c u d off.1 j
  (es.map Prod.fst,
   off.2 + n.2 + (es.filter fun e => e.2).length + (if n.1 > 0 ∧ off.1 + 8 * n.1 > 0x180000 then 1 else 0))

def gthRun (u : UnitId) (o : Ops) (c : Nat) (i : UnitImg) (b : Block) : TOut × UnitImg :=
  let d := copyDest i o
  let s := tsOf i o
  let l := readList b c u i o s.1 (settCount d.1)
  ofList o i
    (tOutAppend { ev := evClamps (d.2 + s.2 + l.2) } (copySetts b c u i d.1 s.1 (l.1.zipIdx.map fun e => (e.2, e.1))), i)

/-- What GTH reads; SCT likewise, its list running over the source's setts. -/
def gthReads (b : Block) (u : UnitId) (o : Ops) (c : Nat) (i : UnitImg) : List (U64 × Nat) :=
  rangesOfList o i (listReads b u i o (settCount (copyDest i o).1) ++ copyReads b u o c i)
def sctReads (b : Block) (u : UnitId) (o : Ops) (c : Nat) (i : UnitImg) : List (U64 × Nat) :=
  rangesOfList o i (listReads b u i o (settCount (tsOf i o).1) ++ copyReads b u o c i)
def listWrites (b : Block) (o : Ops) (c : Nat) (i : UnitImg) : List (U64 × Nat) := rangesOfList o i (copyRanges b o c i)

def gthEff (u : UnitId) (o : Ops) (b : Block) : Block :=
  tensorEff u 0x09 o (legalList o) noArray b (fun _ _ => none) (gthReads b u o) (listWrites b o) (gthRun u o)

/-- The (destination, source) setts of a list over destination setts in destination sett order, each with the last entry
that names it (R90, R97). -/
def lastEntries (setts : Nat) (l : List Nat) : List (Nat × Nat) :=
  (List.range setts).filterMap fun n => ((l.zipIdx.filter fun e => e.1 == n).getLast?).map fun e => (n, e.2)

/-- SCT (R90): of several entries naming one destination sett the last stands; setts that share an address are written in
destination sett order (R97). -/
def sctRun (u : UnitId) (o : Ops) (c : Nat) (i : UnitImg) (b : Block) : TOut × UnitImg :=
  let d := copyDest i o
  let s := tsOf i o
  let l := readList b c u i o d.1 (settCount s.1)
  ofList o i
    (tOutAppend { ev := evClamps (d.2 + s.2 + l.2) } (copySetts b c u i d.1 s.1 (lastEntries (settCount d.1) l.1)), i)

def sctEff (u : UnitId) (o : Ops) (b : Block) : Block :=
  tensorEff u 0x0A o (legalList o) noArray b (fun _ _ => none) (sctReads b u o) (listWrites b o) (sctRun u o)

/-- A destination element's exact sum under SCTA (R91): previous value, then every contribution. -/
def sctaSeam (b : Block) (c : Nat) (i : UnitImg) (d s : Desc) (srcs : List Nat) (k : Coord) : Seam :=
  let start := match d.fmt with
    | some _ => seamAdd (elemValue b c i d k).1 seamEmpty
    | none => elemSeam b c i d k
  srcs.foldl (fun x n =>
    let t := coordAt s n (k.y % 32 * dCols s + k.x % dCols d)
    match s.fmt with
    | some _ => seamAdd (elemValue b c i s t).1 x
    | none => seamMerge (elemSeam b c i s t) x) start

def sctaMode (o : Ops) : WMode := { mode := modeOf (bits o 0 2), sat := bit o 2, tid := fs3 o, frame := fs4 o }

def sctaRun (u : UnitId) (o : Ops) (c : Nat) (i : UnitImg) (b : Block) : TOut × UnitImg :=
  let d := tdOf i o
  let s := tsOf i o
  let l := readList b c u i o d.1 (settCount s.1)
  let cl : Nat := if dCols d.1 < dCols s.1 then 1 else 0
  let out := writeView b c u i d.1 (sctaMode o) fun k =>
    let n := settAt d.1 k
    let srcs := (l.1.zipIdx.filter fun e => e.1 = n).map Prod.snd
    if srcs.isEmpty || decide (k.x % dCols d.1 ≥ dCols s.1) then none
    else some (.seam (sctaSeam b c i d.1 s.1 srcs k), {})
  ofList o i (tOutAppend { ev := evClamps (d.2 + s.2 + l.2 + cl) } out, i)

/-- Seams SCTA reserves: one per element of each distinct destination sett its list names (R122). -/
def sctaNeed (b : Block) (c : Nat) (u : UnitId) (i : UnitImg) (o : Ops) : Nat :=
  let d := (tdOf i o).1
  if listEmpty i o then 0 else ((readList b c u i o d (settCount (tsOf i o).1)).1.dedup).length * settElems d

/-- What SCTA reads: its list, both views with their scales, the destination's map and frame. -/
def sctaReads (b : Block) (u : UnitId) (o : Ops) (c : Nat) (i : UnitImg) : List (U64 × Nat) :=
  rangesOfList o i (listReads b u i o (settCount (tsOf i o).1) ++ sourceRanges b c i (tsOf i o).1 ++
    viewRanges (tdOf i o).1 ++ destReads b c u i (tdOf i o).1 (sctaMode o))

def sctaEff (u : UnitId) (o : Ops) (b : Block) : Block :=
  tensorEff u 0x0B o (legalScta o) noArray b
    (fun c i => if seamsLack i (sctaNeed b c u i o) then some (7, 0) else none) (sctaReads b u o)
    (fun c i => rangesOfList o i (destRanges b c i (tdOf i o).1))
    fun c i b => spilled i (sctaNeed b c u i o) (sctaRun u o c i b)

/-! ### The spoil heap -/

/-- The heap record's fields (R187) as R212 reads them, at the offset of S1, with the clamps of both. -/
structure Heap where
  off : Nat
  clamp : Nat
  base : U64
  limit : U64
  top : U64
  depth : U64
deriving DecidableEq, Repr

/-- One address of a heap record, clamped (R212): the module's own number, and for two of them bits [5:0] cleared.
[DEDUCED, log 33] -/
def heapAddr (b : Block) (low : Bool) (a : U64) : U64 × Nat :=
  let l := faLocal a
  let r := ownAddr b (if low then l - l % 64 else l)
  (r, if r = a then 0 else 1)

/-- [DEDUCED, log 33] -/
def readHeap (b : Block) (c : Nat) (u : UnitId) (i : UnitImg) (o : Ops) : Heap :=
  let f := sramOffset 32 0x17FFE0 (sreg i (fs1 o))
  let w (t : Nat) : U64 := BitVec.ofNat 64 (leNat (rdSram b c (tileNo u) (f.1 + t) 8))
  let lo := heapAddr b true (w 0)
  let hi := heapAddr b false (w 8)
  let tp := heapAddr b true (w 16)
  { off := f.1, clamp := f.2 + lo.2 + hi.2 + tp.2, base := lo.1, limit := hi.1, top := tp.1, depth := w 24 }

/-- The heap record's bytes. -/
def heapRecord (b : Block) (u : UnitId) (i : UnitImg) (o : Ops) : List (U64 × Nat) :=
  sramPart b u (sramOffset 32 0x17FFE0 (sreg i (fs1 o))).1 32

/-- Block scale bytes a push carries (R188), and the clamp of a block-mode record without an array. -/
def heapScales (b : Block) (c : Nat) (i : UnitImg) (d : Desc) : Nat × Nat :=
  if d.sr = 0 then (0, 0)
  else
    let s := readScale b c i d.sr
    if s.mode then (if s.blocks = 0 then (0, 1) else (settCount d * settBlocks d, 0)) else (0, 0)

/-- The array of those bytes. -/
def heapArray (b : Block) (c : Nat) (i : UnitImg) (d : Desc) : List (U64 × Nat) :=
  match blockRecord b c i d with | some s => [scaleArray d s] | none => []

/-- z of R188. -/
def heapSize (b : Block) (c : Nat) (i : UnitImg) (d : Desc) : Nat :=
  2048 * settCount d + 64 * (((heapScales b c i d).1 + 63) / 64)

def pushOver (b : Block) (c : Nat) (u : UnitId) (i : UnitImg) (o : Ops) : Bool :=
  let h := readHeap b c u i o
  decide (h.top.toNat + heapSize b c i (tsOf i o).1 > h.limit.toNat)

def popUnder (b : Block) (c : Nat) (u : UnitId) (i : UnitImg) (o : Ops) : Bool :=
  let h := readHeap b c u i o
  decide (h.top.toNat < h.base.toNat + heapSize b c i (tdOf i o).1)

/-- The record's new TOP and DEPTH. -/
def heapWrites (b : Block) (u : UnitId) (h : Heap) (top depth : U64) : List (U64 × Nat × Nat × Nat) :=
  [(sramAddr b u (h.off + 16), 0, 64, top.toNat), (sramAddr b u (h.off + 24), 0, 64, depth.toNat)]

def hpushRun (u : UnitId) (o : Ops) (c : Nat) (i : UnitImg) (b : Block) : TOut × UnitImg :=
  let h := readHeap b c u i o
  let s := tsOf i o
  let sc := heapScales b c i s.1
  let setts := (List.range (settCount s.1)).map fun n =>
    (addrAdd h.top (2048 * n), 0, 8 * 2048, leNat (readBytes b c i (settRange s.1 n).1 2048))
  let scales := (List.range sc.1).map fun j =>
    (addrAdd h.top (2048 * settCount s.1 + j), 0, 8,
      (readByte b c i (addrAdd (readScale b c i s.1.sr).blocks j)).toNat)
  ({ writes := setts ++ scales ++ heapWrites b u h (addrAdd h.top (heapSize b c i s.1)) (h.depth + 1)
     ev := evClamps (s.2 + h.clamp + sc.2) }, i)

/-- The heap record can be read: no uncorrectable word of it decides whether the heap has room (R104). -/
def heapSound (b : Block) (c : Nat) (u : UnitId) (i : UnitImg) (o : Ops) : Bool :=
  !(meetReads b c u (heapRecord b u i o)).faulted

def hpushReads (b : Block) (u : UnitId) (o : Ops) (c : Nat) (i : UnitImg) : List (U64 × Nat) :=
  heapRecord b u i o ++ recordRange (tsOf i o).1 ++
    (if pushOver b c u i o then [] else viewRanges (tsOf i o).1 ++ heapArray b c i (tsOf i o).1)

/-- HPUSH (R188): cause 5 with XADDR = HEAP.LIMIT when the view does not fit. -/
def hpushEff (u : UnitId) (o : Ops) (b : Block) : Block :=
  tensorEff u 0x0C o (legalHpush o) noArray b
    (fun c i => if pushOver b c u i o && heapSound b c u i o then some (5, (readHeap b c u i o).limit) else none)
    (hpushReads b u o)
    (fun c i => if pushOver b c u i o then []
      else [((readHeap b c u i o).top, heapSize b c i (tsOf i o).1)]) (hpushRun u o)

def hpopRun (u : UnitId) (o : Ops) (c : Nat) (i : UnitImg) (b : Block) : TOut × UnitImg :=
  let h := readHeap b c u i o
  let d := tdOf i o
  let z := heapSize b c i d.1
  let from_ := h.top - BitVec.ofNat 64 z
  let sc := heapScales b c i d.1
  let setts := ((List.range (settCount d.1)).filter fun n => wemBit b c u d.1 n).flatMap fun n =>
    ((settRange d.1 n).1, 0, 8 * 2048, leNat (readBytes b c i (addrAdd from_ (2048 * n)) 2048)) ::
      (if sc.1 = 0 then [] else (List.range (settBlocks d.1)).map fun j =>
        (addrAdd (readScale b c i d.1.sr).blocks (n * settBlocks d.1 + j), 0, 8,
          (readByte b c i (addrAdd from_ (2048 * settCount d.1 + n * settBlocks d.1 + j))).toNat))
  ({ writes := setts ++ heapWrites b u h from_ (h.depth - 1), ev := evClamps (d.2 + h.clamp + sc.2 + wemClamp d.1) }, i)

def hpopReads (b : Block) (u : UnitId) (o : Ops) (c : Nat) (i : UnitImg) : List (U64 × Nat) :=
  heapRecord b u i o ++ recordRange (tdOf i o).1 ++
    (if popUnder b c u i o then []
     else ((readHeap b c u i o).top - BitVec.ofNat 64 (heapSize b c i (tdOf i o).1), heapSize b c i (tdOf i o).1) ::
       mapReads b u (tdOf i o).1)

/-- HPOP (R189): cause 6 with XADDR = HEAP.BASE when the heap holds too little. -/
def hpopEff (u : UnitId) (o : Ops) (b : Block) : Block :=
  tensorEff u 0x0D o (legalHpop o) noArray b
    (fun c i => if popUnder b c u i o && heapSound b c u i o then some (6, (readHeap b c u i o).base) else none)
    (hpopReads b u o)
    (fun c i => if popUnder b c u i o then []
      else viewRanges (tdOf i o).1 ++ heapArray b c i (tdOf i o).1) (hpopRun u o)

end Sys2Proof.Machine
end

