-- ==== Sys2Proof/Machine/Resume.lean ====
section
/-!
DEFINITION. What happens on its own when something a unit waits for has come: waiting instructions go on (R26, R168,
R192, R198 to R200, R245), units start at their entries (R162), and the context that runs next is chosen and switched
in at a context boundary (R15, R21, R26, R130, R467).
-/
namespace Sys2Proof.Machine

/-! ### Waiting instructions -/

/-- Execute a tensor word. -/
def reTensor (u : UnitId) (op : Nat) (o : Ops) (b : Block) : Block :=
  if op = 0x00 then mmaEff u o b
  else if op = 0x01 then (if bit o 3 then rollEff u o b else cvtEff u o b)
  else if op = 0x02 then ewuEff u o b
  else if op = 0x03 then ewbEff u o b
  else if op = 0x04 then tredEff u o b
  else if op = 0x05 then mskpEff u o b
  else if op = 0x06 then mskxEff u o b
  else if op = 0x07 then txpEff u o b
  else if op = 0x08 then movbEff u o b
  else if op = 0x09 then gthEff u o b
  else if op = 0x0A then sctEff u o b
  else if op = 0x0B then sctaEff u o b
  else if op = 0x0C then hpushEff u o b
  else if op = 0x0D then hpopEff u o b
  else if op = 0x0E then (if bits o 0 2 = 0 then tieOpenEff u o b else tieAddEff u o b)
  else tiexEff u o b

def reFabric (u : UnitId) (op : Nat) (o : Ops) (b : Block) : Block :=
  if op = 0x00 then putEff u o b
  else if op = 0x01 then getEff u o b
  else if op = 0x02 then raddEff u o b
  else if op = 0x03 then putsEff u o b
  else if op = 0x05 then fenceEff u o b
  else if op = 0x08 then collEff u o b
  else b

def reUpdate (u : UnitId) (op : Nat) (o : Ops) (b : Block) : Block :=
  if op = 0x00 then updNormPartialEff u o b
  else if op = 0x01 then updAdamEff u o b
  else if op = 0x02 then updAdamwEff u o b
  else updSgdmEff u o b

/-- Execute the word of an instruction that waited before it had any effect. -/
def reissue (u : UnitId) (w : U64) (b : Block) : Block :=
  let o : Ops := w.setWidth 52
  let op := (w.extractLsb' 52 6).toNat
  let cls := (w.extractLsb' 58 6).toNat
  if cls = 0x02 then ldEff u o b
  else if cls = 0x08 then vldEff u o b
  else if cls = 0x10 then reTensor u op o b
  else if cls = 0x14 then reFabric u op o b
  else if cls = 0x20 then reUpdate u op o b
  else if op = 0x00 then dsubEff u o b
  else dnextEff u o b

/-- Execute the word of an instruction that has issued: a drain does not stop it (R160). -/
def goWord (u : UnitId) (w : U64) (b : Block) : Block :=
  { reissue u w { b with draining := false } with draining := b.draining }

/-- Let a waiting unit go on when what it waits for may have come. -/
def settleUnit (u : UnitId) (b : Block) : Block :=
  match waitCtx b u with
  | none => b
  | some (c, k, w) =>
    let i := img b c u
    match k with
    | .drain => if accessDone i then retire b c u (accessed i) else b
    | .fetch => if accessDone i then goWord u w (setImg b c u { i with run := .running }) else b
    | .scope | .room | .round => goWord u w (setImg b c u { i with run := .running })
    | .counter | .stepEnd => b

def isWaiting : RunSt → Bool
  | .waiting .counter _ => false
  | .waiting .stepEnd _ => false
  | .waiting _ _ => true
  | _ => false

/-- The units of the running context that wait for something a command can bring, ascending. -/
def waiters (b : Block) : List Nat :=
  match b.running with
  | none => []
  | some c => (b.units.filter fun e => e.1 / 65536 == c && isWaiting e.2.run).map fun e => e.1 % 65536

/-- Settle every waiting unit, again while that lets units go on. -/
def settleN : Nat → Block → Block
  | 0, b => b
  | n + 1, b =>
    let b1 := (waiters b).foldl (fun x k => settleUnit (unitOf k) x) b
    if (waiters b1).length < (waiters b).length then settleN n b1 else b1

def settleAll (b : Block) : Block := settleN (waiters b).length b

/-! ### Starting units -/

/-- A unit's image at its start: registers zero, outside handler state (R136); event counters keep their counts. -/
def startImg (old : UnitImg) (pc : U64) (run : Bool) (builtin : Bool) : UnitImg :=
  { pc := pc, run := if run then .running else .halted, started := run, builtin := builtin, cnt := old.cnt,
    collSeq := old.collSeq, colls := old.colls, subs := old.subs }

/-- Entry of a kind of unit as PROGRAM_LOAD read it: 0 tiles, 1 Reckoners, 2 Derricks, 3 engines (R161). -/
def entryOf (x : Ctx) (kind : Nat) : Nat := x.entries.getD kind 0

/-- Start a unit at its kind's entry; an entry of 0 leaves a tile halted and selects a built-in program elsewhere
(R161, R162). [DEDUCED, log 48] -/
def startUnit (c : Nat) (b : Block) (u : UnitId) : Block :=
  let x := ctxOf b c
  let kind := sysUnit u % 16
  let e := entryOf x kind
  let pc := x.image + BitVec.ofNat 64 e
  let i := img b c u
  match u with
  | .tile t =>
    if e = 0 then setImg b c u (startImg i 0 false false)
    else
      let h := tileHw b t.val
      setTileHw (setImg b c u (startImg i pc true false)) t.val { h with halt := false }
  | .reckoner k =>
    let r := rckOf b k.val
    setImg (setRck b k.val { r with loops := tdel r.loops c }) c u
      (if e = 0 then startImg i 0 true true else startImg i pc true false)
  | _ => setImg b c u (if e = 0 then startImg i 0 true true else startImg i pc true false)

def presentUnits (b : Block) : List UnitId :=
  ((List.range 1152).filter (tilePresent b)).map (fun t => UnitId.tile (tile1152 t)) ++
  ((List.range 12).filter fun k => b.geo.regions.getLsbD k).map (fun k => UnitId.reckoner (region12 k)) ++
  ((List.range 12).filter fun k => b.geo.derricks.getLsbD k).map (fun k => UnitId.derrick (region12 k)) ++
  ((List.range 12).filter fun k => b.geo.regions.getLsbD k).map (fun k => UnitId.engine (region12 k))

/-- Every unit of a context starts at its entry (R162). -/
def startUnits (b : Block) (c : Nat) : Block := (presentUnits b).foldl (startUnit c) b

/-- Region PLLs of present regions start when a context becomes runnable (R23, R475): a context uses every region.
[DESIGN CHOICE, log 103] -/
def startPlls (b : Block) : Block :=
  { b with pw := { b.pw with regionPll := (List.range 12).foldl (fun t k =>
      if b.geo.regions.getLsbD k && tget t 0 k == 0 then tput t 0 k 1 else t) b.pw.regionPll } }

/-! ### Context boundaries -/

/-- A change of the geometry table raises its generation before and after (R21). -/
def geoChange (b : Block) (f : Geo → Geo) : Block :=
  let g := f b.geo
  if g = b.geo then b else { b with geo := { g with generation := g.generation + 2 } }

/-- GEO.RESIDENT follows the contexts: the generation rises twice with each change (R21). [DEDUCED, log 55] -/
def geoTouch (b : Block) : Block := { b with geo := { b.geo with generation := b.geo.generation + 2 } }

/-- Enter a state of R313: a link in UP is set in GEO.LINKS (R21), and the host hears of the change (R434).
[DEDUCED, log 55] -/
def setLinkSt (b : Block) (k : Nat) (st : BitVec 4) : Block :=
  if (linkOf b k).st = st then b
  else
    let b1 := setLink b k { linkOf b k with st := st }
    let bit := 1#32 <<< k
    let b2 := geoChange b1 fun g => { g with links := if st = 7 then g.links ||| bit else g.links &&& ~~~ bit }
    sendEvent b2 { kind := 9, ctx := 0xFF, body := [BitVec.ofNat 64 k, st.setWidth 64] }

/-- Map logical tile t to the next spare of its region and run the tile self-test on it: a spare that passes serves t from
here on; one that fails raises a tile fault of cause 5 and is retired in its turn (R15, R129). Without a spare left the
region loses a tile. The hardware counters, FAULT_CAUSE and FAULT_PC of t stay as they are. [DESIGN CHOICE, log 102] -/
def takeSpare : Nat → Block → Nat → Block
  | n, b, t =>
    let k := t / 96
    let used := tget b.pw.retiredIn 0 k
    let b1 := { b with
      pw := { b.pw with retiredIn := tput b.pw.retiredIn 0 k (used + 1) }
      ft := { b.ft with retired := satAdd b.ft.retired 1 } }
    let fit (z : Block) : Block := setTileHw z t { tileHw z t with faulted := false, retire := false }
    if 4 ≤ used then geoChange (fit b1) fun g => { g with tiles := g.tiles.set k (g.tiles.getD k 0 - 1) }
    else if b.pw.badSpares.contains (4 * k + used) then
      match n with
      | 0 => fit b1
      | m + 1 => takeSpare m (tileFault b1 t 5 0 0) t
    else fit b1

/-- A retired tile's logical number moves to a spare; without one its region loses a tile (R15). The tile's hardware counters,
FAULT_CAUSE and FAULT_PC stay. [DESIGN CHOICE, log 102] -/
def retireTile (b : Block) (t : Nat) : Block := takeSpare 4 b t

/-- Tiles marked by a fault or by SPARE_OVERRIDE (R15, R425). -/
def retiring (b : Block) : List Nat := (b.tiles.filter fun e => e.2.retire).map Prod.fst

/-- A present tile that context c has not started, or that was reset in it. -/
def notStarted (b : Block) (c t : Nat) : Bool :=
  let i := img b c (.tile (tile1152 t))
  tilePresent b t && i.run == .halted && !i.started && !i.builtin

/-- A tile that was reset, or that a spare now serves, starts at its entry (R130). -/
def startReset (b : Block) (c : Nat) : Block :=
  ((List.range 1152).filter (notStarted b c)).foldl (fun x t => startUnit c x (.tile (tile1152 t))) b

/-- The held request has waited longer than FAB_TIMEOUT: an own one when its requester has ended it; of another module's,
whose age is no state, nothing is known. [DESIGN CHOICE, log 107] -/
def heldLong (b : Block) (r : Request) : Bool :=
  if r.src = b.geo.own then
    match tlook b.fab.reqs r.tag.toNat with
    | some q => q.req != r
    | none => true
  else Config.heldLong b.freeCtr r.src.toNat r.tag.toNat

/-- Held requests that have waited longer than FAB_TIMEOUT are discarded at a context boundary, and counted (R26, R293). -/
def dropHeld (b : Block) : Block :=
  { b with
    freeCtr := b.freeCtr + 1
    fab := { b.fab with
      held := b.fab.held.filter fun r => !heldLong b r
      heldDrop := satAdd b.fab.heldDrop (b.fab.held.filter (heldLong b)).length } }

/-- The runnable context with the lowest number above the last one that ran, wrapping at 15 (R467). [DEDUCED, log 94] -/
def nextRunnable (b : Block) : Option Nat :=
  ((List.range 16).map fun j => (b.lastRan + 1 + j) % 16).find? fun c =>
    match tlook b.ctxs c with
    | some x => x.st == .runnable
    | none => false

/-- The unit waits in WAITC. -/
def watching (i : UnitImg) : Bool :=
  match i.run with
  | .waiting .counter _ => true
  | _ => false

/-- Context c becomes the running context; its waiting units arm their watches again and read their words, as at a wake
(R125, R160). [DEDUCED, log 34] -/
def nowRuns (b : Block) (c : Nat) : Block :=
  { b with
    running := some c, lastRan := c, draining := false
    wakes := (b.units.filter fun e => e.1 / 65536 == c && watching e.2).map fun e => e.1 % 65536 }

/-- Switch context c in: the work of a context boundary, held requests performed, waiting instructions let go on.
[DEDUCED, log 93] -/
def switchIn (b : Block) (c : Nat) : Block :=
  settleAll (releaseHeld (startReset (nowRuns (dropHeld { (retiring b).foldl retireTile b with regionFault := 0 }) c) c))

/-- With no context running, the next runnable one runs; with none runnable the region PLLs stop (R23, R467, R475). A
fleet test run holds every context (R503). A context that faults as it is switched in gives way to the next; after
sixteen, a context runs without its waiting instructions being looked at. -/
def scheduleN : Nat → Block → Block
  | n, b =>
    match b.running with
    | some _ => b
    | none =>
      if b.ft.run.isSome then b
      else match nextRunnable b with
        | none => { b with pw := { b.pw with regionPll := [] } }
        | some c => match n with
          | 0 => nowRuns b c
          | n + 1 => scheduleN n (switchIn b c)

/-- [DEDUCED, log 94] -/
def schedule (b : Block) : Block := scheduleN 16 b

/-- A unit that the debug port steps stops again after its instruction (R510): its image has changed and it does not
wait. `b0` is the block before the command. [DEDUCED, log 92] -/
def endStep (b0 b : Block) : Block :=
  match b.chip.stepOnce with
  | none => b
  | some u =>
    let i := liveImg b u
    if i = liveImg b0 u then b
    else match i.run with
      | .waiting _ _ => b
      | _ => { b with chip := { b.chip with stepOnce := none } }

/-- The tile waits in WAITC with gating permitted (R124, R128). -/
def asleep (b : Block) (t : Nat) : Bool :=
  (tileHw b t).gate && match (liveImg b (.tile (tile1152 t))).run with | .waiting .counter _ => true | _ => false

/-- Its clock is gated: no wake is pending (R125). -/
def gated (b : Block) (t : Nat) : Bool := asleep b t && !b.wakes.contains (16 * t)

/-- The clocks of the running context's gated tiles run again (R126). [DEDUCED, log 34] -/
def ungate (b : Block) (c : Nat) : Block :=
  if b.running = some c then
    (List.range 1152).foldl (fun z t => if asleep b t then gateWake z (.tile (tile1152 t)) else z) b
  else b

/-- A drain abandons WAITC with pc left on it (R160). [DEDUCED, log 73] -/
def abandonWaits (b0 : Block) (c : Nat) : Block :=
  let b := ungate b0 c
  { b with wakes := [], units := b.units.map fun e =>
      if e.1 / 65536 = c then
        match e.2.run with
        | .waiting .counter _ => (e.1, { e.2 with run := .running })
        | _ => e
      else e }

/-- A drain saves the context once no instruction that has issued can still go on; WAITC is abandoned (R160). STEPEND,
which the stopped units can no longer let close, stays waiting over the drain. [DEDUCED, log 73] -/
def finishDrain (b : Block) : Block :=
  match b.running with
  | none => b
  | some c =>
    if b.draining && !(waiters b).any (fun k => (waitCtx b (unitOf k)).isSome) then haltCtx (abandonWaits b c) c .drained
    else b

/-- What follows every command: waiting instructions go on where what they wait for has come (R26, R142, R168), a drain
ends, a stepped unit stops, and a context runs where one can. -/
def after (b0 b : Block) : Block := schedule (endStep b0 (finishDrain (settleAll b)))

theorem schedule_running (b : Block) (c : Nat) (h : b.running = some c) : schedule b = b := by
  simp [schedule, scheduleN, h]

end Sys2Proof.Machine
end

