-- ==== Sys2Proof/Machine/Signature.lean ====
section
/-!
DEFINITION. Failure signature records: their CBOR and JSON forms (R505, R506) and the store that holds them (R507).
-/
namespace Sys2Proof.Machine

/-! ### CBOR in the preferred serialisation (RFC 8949) -/

/-- Big-endian bytes of a number. -/
def beBytes (n v : Nat) : List Byte := (leBytes n v).reverse

/-- A data item's head: major type and argument in the shortest form. -/
def cborHead (major n : Nat) : List Byte :=
  if n < 24 then leBytes 1 (32 * major + n)
  else if n < 2 ^ 8 then leBytes 1 (32 * major + 24) ++ beBytes 1 n
  else if n < 2 ^ 16 then leBytes 1 (32 * major + 25) ++ beBytes 2 n
  else if n < 2 ^ 32 then leBytes 1 (32 * major + 26) ++ beBytes 4 n
  else leBytes 1 (32 * major + 27) ++ beBytes 8 n

def cborUint (n : Nat) : List Byte := cborHead 0 n
def cborInt (n : Int) : List Byte := if n < 0 then cborHead 1 (-1 - n).toNat else cborHead 0 n.toNat
def cborBytes (x : List Byte) : List Byte := cborHead 2 x.length ++ x
/-- An array of items already encoded. -/
def cborArray (l : List (List Byte)) : List Byte := cborHead 4 l.length ++ l.flatMap id

/-- A record as one CBOR item. -/
def sigCbor (r : SigRec) : List Byte :=
  cborHead 5 11 ++
  cborUint 0 ++ cborUint r.num ++ cborUint 1 ++ cborUint r.own ++ cborUint 2 ++ cborBytes r.serial ++
  cborUint 3 ++ cborArray (r.unit.map cborInt) ++ cborUint 4 ++ cborArray (r.pattern.map cborUint) ++
  cborUint 5 ++ cborArray (r.cells.map fun c => cborArray [cborUint c.1, cborUint c.2.1, cborBytes c.2.2.1, cborBytes c.2.2.2]) ++
  cborUint 6 ++ cborUint r.total ++ cborUint 7 ++ cborArray (r.conditions.map cborInt) ++
  cborUint 8 ++ cborBytes r.firmware ++ cborUint 9 ++ cborUint r.trigger ++ cborUint 10 ++ cborUint r.outcome

/-! Reading an item back, as a keeper does with a relayed record. -/

/-- Major type, argument and rest. -/
def readHead (x : List Byte) : Option (Nat × Nat × List Byte) :=
  match x with
  | [] => none
  | h :: r =>
    let a := h.toNat % 32
    let big (n : Nat) : Option (Nat × Nat × List Byte) :=
      if n ≤ r.length then some (h.toNat / 32, leNat (r.take n).reverse, r.drop n) else none
    if a < 24 then some (h.toNat / 32, a, r)
    else if a = 24 then big 1 else if a = 25 then big 2 else if a = 26 then big 4 else if a = 27 then big 8 else none

def readInt (x : List Byte) : Option (Int × List Byte) :=
  match readHead x with
  | some (0, n, r) => some ((n : Int), r)
  | some (1, n, r) => some (-1 - (n : Int), r)
  | _ => none

def readUint (x : List Byte) : Option (Nat × List Byte) :=
  match readHead x with
  | some (0, n, r) => some (n, r)
  | _ => none

def readBstr (x : List Byte) : Option (List Byte × List Byte) :=
  match readHead x with
  | some (2, n, r) => if n ≤ r.length then some (r.take n, r.drop n) else none
  | _ => none

/-- `n` items in a row. -/
def readMany {α : Type} (one : List Byte → Option (α × List Byte)) : Nat → List Byte → Option (List α × List Byte)
  | 0, x => some ([], x)
  | n + 1, x => do
    let a ← one x
    let r ← readMany one n a.2
    return (a.1 :: r.1, r.2)

def readArray {α : Type} (one : List Byte → Option (α × List Byte)) (x : List Byte) : Option (List α × List Byte) :=
  match readHead x with
  | some (4, n, r) => if n ≤ 64 then readMany one n r else none
  | _ => none

def readCell (x : List Byte) : Option ((Nat × Nat × List Byte × List Byte) × List Byte) :=
  match readHead x with
  | some (4, 4, r) => do
    let a ← readUint r
    let c ← readUint a.2
    let e ← readBstr c.2
    let o ← readBstr e.2
    return ((a.1, c.1, e.1, o.1), o.2)
  | _ => none

/-- The value under the next key, when it is the key expected. -/
def readKey {α : Type} (k : Nat) (one : List Byte → Option (α × List Byte)) (x : List Byte) : Option (α × List Byte) := do
  let h ← readUint x
  if h.1 = k then one h.2 else none

def readSig (x : List Byte) : Option SigRec :=
  match readHead x with
  | some (5, 11, r) => do
    let num ← readKey 0 readUint r
    let own ← readKey 1 readUint num.2
    let serial ← readKey 2 readBstr own.2
    let unit ← readKey 3 (readArray readInt) serial.2
    let pattern ← readKey 4 (readArray readUint) unit.2
    let cells ← readKey 5 (readArray readCell) pattern.2
    let total ← readKey 6 readUint cells.2
    let cond ← readKey 7 (readArray readInt) total.2
    let fw ← readKey 8 readBstr cond.2
    let trig ← readKey 9 readUint fw.2
    let out ← readKey 10 readUint trig.2
    return { num := num.1, own := own.1, serial := serial.1, unit := unit.1, pattern := pattern.1, cells := cells.1,
             total := total.1, conditions := cond.1, firmware := fw.1, trigger := trig.1, outcome := out.1 }
  | _ => none

/-! ### JSON (R506) -/

def jsonText (x : String) : List Byte := [34#8] ++ ascii x ++ [34#8]
def jsonNat (n : Nat) : List Byte := ascii (toString n)
def jsonInt (n : Int) : List Byte := ascii (toString n)
def hexDigit (n : Nat) : Byte := BitVec.ofNat 8 (if n < 10 then 48 + n else 87 + n)
/-- A byte string as lower-case hexadecimal digits. -/
def jsonHex (x : List Byte) : List Byte :=
  [34#8] ++ (x.flatMap fun y => [hexDigit (y.toNat / 16), hexDigit (y.toNat % 16)]) ++ [34#8]

/-- Items set apart by commas. -/
def commas : List (List Byte) → List Byte
  | [] => []
  | [x] => x
  | x :: r => x ++ [44#8] ++ commas r

/-- An object of named values; 123 and 125 are the braces. -/
def jsonObject (l : List (String × List Byte)) : List Byte :=
  [123#8] ++ commas (l.map fun e => jsonText e.1 ++ [58#8] ++ e.2) ++ [125#8]

def jsonArray (l : List (List Byte)) : List Byte := [91#8] ++ commas l ++ [93#8]

def sigJson (r : SigRec) : List Byte :=
  let named (ks : List String) (vs : List (List Byte)) : List Byte := jsonObject (ks.zip vs)
  jsonObject
    [("record", jsonNat r.num), ("module", jsonNat r.own), ("serial", jsonHex r.serial),
     ("unit", named ["kind", "region", "index", "sub"] (r.unit.map jsonInt)),
     ("pattern", named ["package", "number", "svn", "repetition"] (r.pattern.map jsonNat)),
     ("cells", jsonArray (r.cells.map fun c =>
        named ["row", "col", "expected", "observed"] [jsonNat c.1, jsonNat c.2.1, jsonHex c.2.2.1, jsonHex c.2.2.2])),
     ("cells_total", jsonNat r.total),
     ("conditions", named ["core_mv", "temp_c", "clock_khz", "v_margin", "clk_margin"] (r.conditions.map jsonInt)),
     ("firmware", jsonHex r.firmware), ("trigger", jsonNat r.trigger), ("outcome", jsonNat r.outcome)]

/-! ### The store (R507) -/

/-- Remove the acknowledged record of lowest number; none where none is acknowledged. -/
def dropAcked (l : List SigRec) : Option (List SigRec) :=
  match (l.filter SigRec.acked) with
  | [] => none
  | a :: r =>
    let low := r.foldl (fun m x => if x.num < m.num then x else m) a
    some (l.erase low)

/-- Hold a record: in a free place, else in place of an acknowledged one, else it is dropped and counted. -/
def holdRec (b : Block) (r : SigRec) : Block :=
  if b.ft.recs.length < 32 then { b with ft := { b.ft with recs := b.ft.recs ++ [r] } }
  else match dropAcked b.ft.recs with
    | some l => { b with ft := { b.ft with recs := l ++ [r] } }
    | none => { b with ft := { b.ft with drop := satAdd b.ft.drop 1 } }

/-- A record of this module takes the next number; a member that is not its own keeper sends it on by SIG (R508). -/
def makeRec (b : Block) (r : SigRec) : Block :=
  let x := { r with num := b.ft.nextRec.toNat, own := b.geo.own.toNat }
  let b1 := holdRec { b with ft := { b.ft with nextRec := b.ft.nextRec + 1, fails := satAdd b.ft.fails 1 } } x
  if b.torus.valid && !b.house.isKeeper then queueFragments b1 0x0B b.geo.keeper.toNat (sigCbor x) else b1

/-- The keeper has acknowledged the last fragment of a record's SIG unit: the record counts as acknowledged. -/
def ackRec (b : Block) (num : Nat) : Block :=
  { b with ft := { b.ft with recs := b.ft.recs.map fun r =>
      if r.num = num ∧ r.own = b.geo.own.toNat then { r with acked := true } else r } }

/-- CERT.SERIAL of the module's certificate (R460). [DEDUCED, log 91] -/
def certSerial (b : Block) : List Byte := (b.vy.cert.drop 8).take 16

/-- The record of one failure: at most 32 cells. -/
def boreRecord (trigger : Nat) (b : Block) (f : BoreFail) : Block :=
  makeRec b { num := 0, own := 0, serial := certSerial b, unit := f.unit, pattern := f.pattern, cells := f.cells.take 32,
              total := f.total, conditions := f.conditions, firmware := b.vy.fwDigest, trigger := trigger,
              outcome := f.outcome }

end Sys2Proof.Machine
end

