-- ==== Sys2Proof/Machine/HostPort.lean ====
section
/-!
DEFINITION. The host port: Ethernet frames and the receive checks (R417 to R422), reliability (R430), sessions and their
agreement (R423, R461 to R463), and the port's address services (R419).
-/
namespace Sys2Proof.Machine

/-! ### Ethernet, IP and UDP -/

def beNat (x : List Byte) : Nat := leNat x.reverse
def cutAt (x : List Byte) (o n : Nat) : List Byte := (x.drop o).take n
def beAt (x : List Byte) (o n : Nat) : Nat := beNat (cutAt x o n)

/-- One bit of the CRC-32 of IEEE 802.3, reflected. -/
def crcBit (c : U32) : U32 := if c.getLsbD 0 then (c >>> 1) ^^^ 0xEDB88320 else c >>> 1
def crcByte (c : U32) (x : Byte) : U32 :=
  let d := c ^^^ x.setWidth 32
  crcBit (crcBit (crcBit (crcBit (crcBit (crcBit (crcBit (crcBit d)))))))
/-- The frame check sequence, in transmission order. -/
def fcsOf (x : List Byte) : List Byte := leBytes 4 (~~~ (x.foldl crcByte 0xFFFFFFFF)).toNat

/-- The one's complement sum of RFC 1071 over 16-bit words. -/
def onesSum (x : List Byte) : Nat :=
  let t := sumOf ((List.range ((x.length + 1) / 2)).map fun j => beAt (x ++ [0#8]) (2 * j) 2)
  let f := t % 65536 + t / 65536
  f % 65536 + f / 65536
def inetCheck (x : List Byte) : Nat := 65535 - onesSum x

/-- What the IP check hands on: the datagram's protocol, its pseudo-header, its payload, and whether it is IPv4. -/
structure Datagram where
  proto : Nat
  src : BitVec 128
  dst : BitVec 128
  pseudo : List Byte
  payload : List Byte
  v4 : Bool
deriving DecidableEq, Repr

def extensionHeader (n : Nat) : Bool := [0, 43, 44, 50, 51, 60, 135].contains n

/-- The all-nodes address and the solicited-node addresses of the port's own: where neighbour discovery asks (R419).
[DEDUCED, log 68] -/
def nodeMulticast (h : HostPort) (a : BitVec 128) : Bool :=
  a == ((0xFF02#128 <<< 112) ||| 1) ||
    h.ip6.any fun x => a == ((0xFF02#128 <<< 112) ||| (0x1FF#128 <<< 24) ||| (x &&& 0xFFFFFF))

/-- The IP check of R422. [DEDUCED, log 68] -/
def ipTake (h : HostPort) (ether : Nat) (x : List Byte) : Option Datagram :=
  if ether = 0x0800 then
    let n := beAt x 2 2
    if beAt x 0 1 = 0x45 ∧ 20 ≤ n ∧ n ≤ x.length ∧ onesSum (x.take 20) = 65535 ∧ beAt x 6 2 % 16384 = 0 ∧
        h.ipv4 = true ∧ beAt x 16 4 = h.ip4.toNat then
      some { proto := beAt x 9 1, src := BitVec.ofNat 128 (beAt x 12 4), dst := BitVec.ofNat 128 (beAt x 16 4), payload := cutAt x 20 (n - 20), v4 := true,
             pseudo := cutAt x 12 8 ++ beBytes 2 (beAt x 9 1) ++ beBytes 2 (n - 20) }
    else none
  else
    let n := beAt x 4 2
    if beAt x 0 1 / 16 = 6 ∧ 40 + n ≤ x.length ∧ extensionHeader (beAt x 6 1) = false ∧
        (h.ip6.contains (BitVec.ofNat 128 (beAt x 24 16)) ||
          beAt x 6 1 == 58 && nodeMulticast h (BitVec.ofNat 128 (beAt x 24 16))) = true then
      some { proto := beAt x 6 1, src := BitVec.ofNat 128 (beAt x 8 16), dst := BitVec.ofNat 128 (beAt x 24 16), payload := cutAt x 40 n, v4 := false,
             pseudo := cutAt x 8 32 ++ beBytes 4 n ++ beBytes 4 (beAt x 6 1) }
    else none

/-- The UDP check of R422: the transport frame. -/
def udpTake (d : Datagram) : Option (List Byte) :=
  let x := d.payload
  let n := beAt x 4 2
  let ok := (d.v4 && beAt x 6 2 == 0) || onesSum (d.pseudo ++ x.take n) == 65535
  if d.proto = 17 ∧ 40 ≤ n ∧ n ≤ x.length ∧ ok = true ∧ (beAt x 2 2 = 47520 ∨ beAt x 2 2 = 47521) then
    some (cutAt x 8 (n - 8))
  else none

/-- Where a datagram that passed the UDP check came from, with the Ethernet frame's source address (R420). -/
def senderOf (frame : List Byte) (d : Datagram) : HostAddr :=
  { v4 := d.v4, mac := BitVec.ofNat 48 (beAt frame 6 6), addr := d.src, port := BitVec.ofNat 16 (beAt d.payload 0 2)
    own := d.dst, ownPort := BitVec.ofNat 16 (beAt d.payload 2 2) }

/-! ### The transport header and what an accepted frame does -/

def leAt (x : List Byte) (o n : Nat) : Nat := leNat (cutAt x o n)

/-- Header check: magic, version, channel, reserved bits, length. -/
def headerOk (x : List Byte) : Bool :=
  let flags := leAt x 4 2
  let len := leAt x 6 2
  leAt x 0 2 == 0x545A && leAt x 2 1 == 1 && decide (leAt x 3 1 ≤ 3) && decide (flags < 4) &&
    x.length == 32 + len + (if flags.testBit 0 then 16 else 0) && (!flags.testBit 1 || len == 0)

/-- The last fragment of a ledger unit: its context and LR.SEQ, by the bulk header. -/
def ledgerLast (p : List Byte) : Option (Nat × Nat) :=
  if leAt p 0 1 = 5 ∧ leAt p 2 2 % 2 = 1 then some (leAt p 1 1, leAt p 16 8) else none

/-- HT.ACK frees the frames below it, the events they carried and the ledger units they end (R400, R430, R433, R434). -/
def takeAck (b : Block) (id ch ack : Nat) : Block :=
  match tlook b.sessions id with
  | none => b
  | some s =>
    let c := chanOf s ch
    if ch = 1 then
      let first := c.txNext - s.events.length
      setSession b id { s with events := s.events.drop (ack - first) }
    else
      let done := c.unacked.filter fun f => decide (f.seq < ack)
      let b1 := setSession b id (setChan s ch { c with unacked := c.unacked.filter fun f => decide (ack ≤ f.seq) })
      let b2 := (done.filterMap fun f => if ch = 2 then ledgerLast f.payload else none).foldl
        (fun z u => ringFree z u.1 u.2) b1
      pumpChan c.backlog.length b2 id ch

/-- Send an ACK_ONLY frame for what a channel has accepted. -/
def sendAck (b : Block) (id ch : Nat) : Block :=
  match tlook b.sessions id with
  | none => b
  | some s =>
    let c := chanOf s ch
    emitFrame (setSession b id (setChan s ch { c with ackDue := 0 })) id ch (ackFrame s.z id ch c.rxNext)

/-- A frame is owed an acknowledgement; the sixty-fourth is acknowledged at once (R430). -/
def oweAck (b : Block) (id ch : Nat) : Block :=
  match tlook b.sessions id with
  | none => b
  | some s =>
    let c := chanOf s ch
    let b1 := setSession b id (setChan s ch { c with ackDue := c.ackDue + 1 })
    if 64 ≤ c.ackDue + 1 then sendAck b1 id ch else b1

def hpCount (b : Block) (f : HostPort → HostPort) : Block := { b with hp := f b.hp }

/-- Session, tag and sequence checks of a session frame. -/
def sessionTake (b : Block) (x : List Byte) : Block :=
  let id := leAt x 8 8
  let ch := leAt x 3 1
  let flags := leAt x 4 2
  let len := leAt x 6 2
  match tlook b.sessions id with
  | none => hpCount b fun h => { h with dropSession := satAdd h.dropSession 1 }
  | some s =>
    let ackOnly := flags.testBit 1
    let seq := leAt x 16 8
    let ack := leAt x 24 8
    let nonce := frameSalt s.z false ackOnly ch ++ leBytes 8 (if ackOnly then ack else seq)
    if flags.testBit 0 then
      match Config.gcmOpen (frameKey s.z false ackOnly ch) nonce (x.take 32) (cutAt x 32 (len + 16)) with
      | none => hpCount b fun h => { h with dropAuth := satAdd h.dropAuth 1 }
      | some _ =>
        let c := chanOf s ch
        let s1 := { s with addr := b.hp.sender }
        if ackOnly then takeAck (setSession b id s1) id ch ack
        else if seq = c.rxNext then
          oweAck (takeAck (setSession b id (setChan s1 ch { c with rxNext := c.rxNext + 1 })) id ch ack) id ch
        else
          let b1 := hpCount b fun h => { h with dropSeq := satAdd h.dropSeq 1 }
          if seq < c.rxNext then oweAck b1 id ch else b1
    else hpCount b fun h => { h with dropSession := satAdd h.dropSession 1 }

/-- The rate check of an agreement frame, in the second of its arrival. -/
def agreementTake (b : Block) (second : Nat) : Block :=
  let n := if b.hp.second = second then b.hp.agreed else 0
  if n < b.hp.agreeRate.toNat then hpCount b fun h => { h with second := second, agreed := n + 1 }
  else hpCount b fun h => { h with second := second, agreed := n, dropSession := satAdd h.dropSession 1 }

/-- R422 from the header check on: what a relayed frame passes (R435). -/
def transportTake (b : Block) (x : List Byte) (second : Nat) : Block :=
  if headerOk x then
    if leAt x 3 1 = 3 then agreementTake b second else sessionTake b x
  else hpCount b fun h => { h with dropHdr := satAdd h.dropHdr 1 }

/-- A live member of this keeper's house, the keeper apart (R435). [DEDUCED, log 66] -/
def relayMember (b : Block) (m : Nat) : Bool :=
  b.house.isKeeper && m != b.geo.own.toNat &&
    ((houseMembers b (houseIndex b).1).any fun e => e.2 == m)

/-- HOST_FRAME_RECEIVE: an Ethernet frame from destination address to FCS, the second of its arrival, and the module
the frame's command or agreement names. What an accepted frame carries is the command that follows. [DEDUCED, log 66] -/
def hostFrameReceive (frame : List Byte) (second target : Nat) (b : Block) : Block :=
  if !cabled b then b
  else
    let n := bump16 b.hp.rx b.hp.rxLow
    let b1 := hpCount b fun h => { h with rx := n.1, rxLow := n.2 }
    let body := frame.take (frame.length - 4)
    let ether := beAt frame 12 2
    if 9216 < frame.length ∨ frame.length < 18 ∨ fcsOf body ≠ frame.drop (frame.length - 4) then
      hpCount b1 fun h => { h with dropLen := satAdd h.dropLen 1 }
    else if ether ≠ 0x86DD ∧ ether ≠ 0x0800 ∧ ether ≠ 0x0806 then
      hpCount b1 fun h => { h with dropProto := satAdd h.dropProto 1 }
    else if ether = 0x0806 then b1
    else match ipTake b1.hp ether (body.drop 14) with
      | none => hpCount b1 fun h => { h with dropIp := satAdd h.dropIp 1 }
      | some d =>
        if d.proto = 1 ∨ d.proto = 58 then b1
        else match udpTake d with
          | none => hpCount b1 fun h => { h with dropUdp := satAdd h.dropUdp 1 }
          | some x =>
            let a := senderOf frame d
            if relayMember b1 target then
              queueFragments (hpCount b1 fun h => { h with relayed := tins h.relayed target a }) 0x0A target x
            else transportTake (hpCount b1 fun h => { h with sender := some a }) x second

/-- HOST_RESEND_TIMER (R430): every unacknowledged frame again, byte for byte; those of the event channel are the frames
of the events not yet delivered. -/
def hostResend (id ch : Nat) (b : Block) : Block :=
  match tlook b.sessions id with
  | none => b
  | some s => if ch = 1 then
      (s.events.foldl (fun (z : Block × Nat) e => (eventFrame z.1 id z.2 s.z e, z.2 + 1))
        (b, (chanOf s 1).txNext - s.events.length)).1
    else
    (chanOf s ch).unacked.foldl (fun z f => emitFrame z id ch (sealedFrame s.z id ch f.seq f.ack f.payload)) b

/-- HOST_ACK_TIMER (R430). -/
def hostAck (id ch : Nat) (b : Block) : Block :=
  match tlook b.sessions id with
  | none => b
  | some s => if (chanOf s ch).ackDue = 0 then b else sendAck b id ch

/-! ### Sessions -/

/-- Close a session: its keys, its events and its unacknowledged frames go (R423). -/
def closeSession (b : Block) (id : Nat) : Block := { b with sessions := tdel b.sessions id }

/-- SESSION_INACTIVITY. -/
def sessionInactivity (id : Nat) (b : Block) : Block :=
  if (tlook b.sessions id).isSome then
    hpCount (closeSession b id) fun h => { h with sessionEnd := satAdd h.sessionEnd 1 }
  else b

/-- Send an agreement message to where the host's came from: its head and body, cut at 8 192 bytes, in clear frames of
channel 3. [DEDUCED, log 67] -/
def sendAgreement (b : Block) (session kind role : Nat) (body : List Byte) : Block :=
  let n := (8 + body.length + 8191) / 8192
  let msg := leBytes 1 kind ++ leBytes 1 role ++ leBytes 2 0 ++ leBytes 2 n ++ leBytes 2 0 ++ body
  (List.range n).foldl (fun z j =>
    let p := cutAt msg (8192 * j) 8192
    let x := transportHeader 3 0 p.length session j 0 ++ p
    if cabled z then
      let t := bump16 z.hp.tx z.hp.txLow
      { z with hp := { z.hp with tx := t.1, txLow := t.2 }, egress := z.egress ++ [.clear z.hp.sender x] }
    else queueFragments z 0x0A z.geo.keeper.toNat x) b

/-- ERROR ends an agreement. The specification numbers no reason: its two bytes are a free value. [DEDUCED, log 67] -/
def agreementError (b : Block) (session role : Nat) : Block :=
  let w := freshWord b
  agreeFailed (sendAgreement
    (hpCount w.2 fun h => { h with agreements := h.agreements.filter fun a => a.session.toNat != session })
    session 0xF role (leBytes 2 w.1.toNat))

/-- HELLO (R461): role code, message body. [DEDUCED, log 67] -/
def hello (role : Nat) (body : List Byte) (b : Block) : Block :=
  if 2 < role ∨ 8 ≤ b.sessions.length ∨ canKey b = false then agreementError b 0 role
  else
    let dk := draw b 64
    let nonce := draw dk.2 32
    let id := nonce.2.hp.nextSession
    let part := nonce.1 ++ leBytes 8 id.toNat ++ Config.mlkemKey dk.1
    match report nonce.2 (Config.shake (body ++ part)) 0 with
    | none => agreementError b 0 role
    | some r =>
      let offer := part ++ r.2.vy.cert ++ r.1
      let a : Agreement := { role := role, peer := body.drop 32, transcript := body ++ offer, session := id, dk := dk.1 }
      sendAgreement (hpCount r.2 fun h => { h with nextSession := id + 1, agreements := h.agreements ++ [a] })
        id.toNat 2 role offer

def roleOf (n : Nat) : Role := if n = 1 then .operator else if n = 2 then .owner else .opened

/-- The operator's key fills a slot, or all four are empty (R463). -/
def operatorOk (b : Block) (digest : List Byte) : Bool :=
  b.vy.ops.contains (some digest) || b.vy.ops.all Option.isNone

/-- An operator that comes while all slots are empty is enrolled in slot 0. -/
def enrolFirst (b : Block) (a : Agreement) : Block :=
  if a.role = 1 ∧ b.vy.ops.all Option.isNone = true then
    nvWrite b fun v => { v with opsNv := v.opsNv.write (v.ops.set 0 (some (Config.shake a.peer))) }
  else b

/-- ENCAP (R461, R462): the session it names, message body. [DEDUCED, log 67] -/
def encap (session : Nat) (body : List Byte) (b : Block) : Block :=
  match b.hp.agreements.find? fun a => a.session.toNat == session with
  | none => b
  | some a =>
    let ct := body.take 1568
    let signed := a.role == 0 || Config.mldsaVerify a.peer (Config.shake a.transcript ++ ct) (body.drop 1568)
    if signed && (a.role != 1 || operatorOk b (Config.shake a.peer)) && decide (b.sessions.length < 8) && canKey b then
      let t := a.transcript ++ body
      let z := sessionSecret (Config.mlkemDecap a.dk ct) t
      let b1 := enrolFirst (hpCount b fun h => { h with agreements := h.agreements.filter fun q => q != a }) a
      sendAgreement (setSession b1 session { role := roleOf a.role, peer := a.peer, z := z, addr := b.hp.sender }) session 4 a.role
        (Config.kmac (confirmKey z) t 256 [])
    else agreementError b session a.role

/-- AGREEMENT_TIMEOUT (R461). -/
def agreementTimeout (session : Nat) (b : Block) : Block :=
  if b.hp.agreements.any fun a => a.session.toNat == session then
    agreeFailed (hpCount b fun h => { h with agreements := h.agreements.filter fun a => a.session.toNat != session })
  else b

/-! ### Address services (R419) -/

/-- Hand an Ethernet frame to the port. -/
def emitClear (b : Block) (x : List Byte) : Block :=
  let t := bump16 b.hp.tx b.hp.txLow
  { b with hp := { b.hp with tx := t.1, txLow := t.2 }, egress := b.egress ++ [.clear none (x ++ fcsOf x)] }

def macBytes (h : HostPort) : List Byte := beBytes 6 h.mac.toNat

/-- An Ethernet frame to a MAC address, padded to the least payload. -/
def etherFrame (h : HostPort) (to_ : List Byte) (ether : Nat) (x : List Byte) : List Byte :=
  to_ ++ macBytes h ++ beBytes 2 ether ++ x ++ List.replicate (46 - x.length) 0

/-- ARP_REQUEST: sender's MAC and IPv4 address, address asked for. [DEDUCED, log 68] -/
def arpRequest (mac : BitVec 48) (ip want : BitVec 32) (b : Block) : Block :=
  if cabled b && b.hp.ipv4 && want == b.hp.ip4 then
    let to_ := beBytes 6 mac.toNat
    emitClear b (etherFrame b.hp to_ 0x0806
      (beBytes 2 1 ++ beBytes 2 0x0800 ++ beBytes 1 6 ++ beBytes 1 4 ++ beBytes 2 2 ++ macBytes b.hp ++
        beBytes 4 want.toNat ++ to_ ++ beBytes 4 ip.toNat))
  else b

/-- An ICMPv6 message with its checksum in an IPv6 packet. [DEDUCED, log 68] -/
def icmp6 (src dst : BitVec 128) (hops : Nat) (head rest : List Byte) : List Byte :=
  let n := head.length + 2 + rest.length
  let addrs := beBytes 16 src.toNat ++ beBytes 16 dst.toNat
  let sum := inetCheck (addrs ++ beBytes 4 n ++ beBytes 4 58 ++ head ++ beBytes 2 0 ++ rest)
  beBytes 4 0x60000000 ++ beBytes 2 n ++ beBytes 1 58 ++ beBytes 1 hops ++ addrs ++ head ++ beBytes 2 sum ++ rest

/-- NEIGHBOUR_SOLICITATION: sender's MAC and IPv6 address, address asked for. [DEDUCED, log 68] -/
def neighbourSolicitation (mac : BitVec 48) (ip want : BitVec 128) (b : Block) : Block :=
  if cabled b && b.hp.ip6.contains want then
    emitClear b (etherFrame b.hp (beBytes 6 mac.toNat) 0x86DD
      (icmp6 want ip 255 (beBytes 2 0x8800) (beBytes 4 0x60000000 ++ beBytes 16 want.toNat ++ beBytes 2 0x0201 ++
        macBytes b.hp)))
  else b

/-- ECHO_REQUEST: IPv6 or IPv4, sender's MAC and address, the module's address, and the message from its identifier
on. [DEDUCED, log 68] -/
def echoRequest (v6 : Bool) (mac : BitVec 48) (ip want : BitVec 128) (x : List Byte) (b : Block) : Block :=
  let to_ := beBytes 6 mac.toNat
  if !cabled b then b
  else if v6 then
    if b.hp.ip6.contains want then emitClear b (etherFrame b.hp to_ 0x86DD (icmp6 want ip 64 (beBytes 2 0x8100) x)) else b
  else if b.hp.ipv4 && want == b.hp.ip4.setWidth 128 then
    let sum := inetCheck (beBytes 4 0 ++ x)
    let head (s : Nat) : List Byte :=
      beBytes 2 0x4500 ++ beBytes 2 (24 + x.length) ++ beBytes 4 0 ++ beBytes 2 0x4001 ++ beBytes 2 s ++
      beBytes 4 b.hp.ip4.toNat ++ beBytes 4 ip.toNat
    emitClear b (etherFrame b.hp to_ 0x0800 (head (inetCheck (head 0)) ++ beBytes 2 0 ++ beBytes 2 sum ++ x))
  else b

/-- DHCP_REPLY: the port's IPv4 address. -/
def dhcpReply (ip : BitVec 32) (b : Block) : Block :=
  if cabled b then hpCount b fun h => { h with ip4 := ip, ipv4 := true } else b

/-- The modified EUI-64 identifier of the MAC address. -/
def eui64 (mac : BitVec 48) : U64 :=
  ((mac >>> 24).setWidth 64 <<< 40) ^^^ (2#64 <<< 56) ||| (0xFFFE#64 <<< 24) ||| (mac &&& 0xFFFFFF).setWidth 64

def linkLocal (mac : BitVec 48) : BitVec 128 := (0xFE80#128 <<< 112) ||| (eui64 mac).setWidth 128

def addIp6 (h : HostPort) (a : BitVec 128) : HostPort := if h.ip6.contains a then h else { h with ip6 := h.ip6 ++ [a] }

/-- ROUTER_ADVERTISEMENT: a prefix of 64 bits for stateless autoconfiguration. -/
def routerAdvertisement (prefix_ : U64) (b : Block) : Block :=
  if cabled b then hpCount b fun h => addIp6 h ((prefix_.setWidth 128 <<< 64) ||| (eui64 h.mac).setWidth 128) else b

/-! ### The Ethernet link (R417, R436, R479, R523) -/

/-- HP_STATE.LINK for what the port finds. -/
def etherLink (h : HostPort) (p : EtherPeer) : BitVec 2 :=
  if h.disable || !p.plugPowered || !p.signal then 0
  else if !p.trained then 1
  else if p.partnerFast && p.plugFast && !h.force800 then 2 else 3

/-- ETHERNET_LINK_CHANGE: a link that comes up has its link-local address. -/
def ethernetChange (p : EtherPeer) (b : Block) : Block :=
  hpCount b fun h =>
    let l := etherLink h p
    let h1 := { h with link := l, lowPower := !p.plugPowered }
    if l.toNat < 2 then h1 else addIp6 h1 (linkLocal h.mac)

/-- HOST_PORT_RETRY (R479): after a failed step 7 the module brings the port up again. -/
def hostPortRetry (p : EtherPeer) (b : Block) : Block :=
  if (tget b.pw.itin {} 7).now = 3 ∧ b.hp.link.toNat < 2 then ethernetChange p b else b

end Sys2Proof.Machine
end

