-- ==== Sys2Proof/Machine/Record.lean ====
section
/-!
DEFINITION. The ledger record, its annex and their confidential form (R393 to R399, R415), and the bytes of a checkpoint
manifest (R403, R404).
-/
namespace Sys2Proof.Machine

/-! ### Totals (R396) -/

/-- The counters of a context's units of the kinds listed: 0 tile, 1 Reckoner, 2 Derrick, 3 engine. -/
def cntSum (b : Block) (c : Nat) (kinds : List Nat) (f : Cnt → U64) : Nat :=
  sumOf ((b.units.filter fun e => e.1 / 65536 == c && kinds.contains (e.1 % 16)).map fun e => (f e.2.cnt).toNat)

/-- MC_NANGEN and CT_NANGEN of the context. -/
def memNangen (b : Block) (c : Nat) : Nat :=
  sumOf ((List.range 12).map fun k => (tget (mcOf b k).nangen 0 c).toNat) + (tget b.ct.nangen 0 c).toNat

def total64 (n : Nat) : List Byte := leBytes 8 (min n (2 ^ 64 - 1))

/-- The twelve totals, with the clamps STEPEND itself counted. -/
def totals (b : Block) (c own : Nat) : List Byte :=
  total64 (cntSum b c [0, 1, 2] Cnt.sat) ++
  total64 (cntSum b c [0, 1, 2] Cnt.nangen + memNangen b c) ++
  total64 (cntSum b c [0] Cnt.wloss) ++
  total64 (cntSum b c [0, 1] Cnt.sunder) ++
  total64 (cntSum b c [0, 1] Cnt.ssat) ++
  total64 (cntSum b c [0] Cnt.first) ++
  total64 (cntSum b c [0, 1, 2, 3] Cnt.clamp + own) ++
  total64 (cntSum b c [1] Cnt.refuse) ++
  total64 (cntSum b c [1] Cnt.nonfin) ++
  total64 (cntSum b c [1] Cnt.skip) ++
  total64 (cntSum b c [2] Cnt.dsat) ++
  total64 (cntSum b c [2] Cnt.pivot)

/-! ### Parts of the record -/

/-- The step summary of a Derrick (R257, R394). -/
def drkSummary (b : Block) (c k : Nat) : List Byte :=
  let d := tget (drkOf b k).ctx {} c
  if !b.geo.derricks.getLsbD k || d.rounds = 0 then
    leBytes 4 0 ++ leBytes 2 0xFFFF ++ leBytes 8 0 ++ leBytes 2 0xFFFF
  else
    leBytes 2 d.statusOr.toNat ++ leBytes 2 (min d.rounds 0xFFFF) ++
    leBytes 2 (match d.cut with | some x => x.1 | none => 0xFFFF) ++
    leBytes 2 (match d.cut with | some x => x.2 | none => 0) ++
    leBytes 2 (d.minIters.getD 0) ++ leBytes 2 (min d.flagged 0xFFFF) ++ leBytes 2 (min d.late 0xFFFF) ++
    leBytes 2 (match d.firstEnv with | some x => x.2 | none => 0xFFFF)

/-- Groups with the valid bit set; none where the table is not valid (R393, R394). -/
def recGroups (b : Block) (x : Ctx) : List Nat :=
  if utValid b x then (List.range 256).filter fun g => grpValid (readGrp b x g) else []

/-- A group entry of the record (R397). -/
def groupEntry (b : Block) (c : Nat) (g : Nat) : List Byte :=
  let x := ctxOf b c
  let a := grpBase x g
  let e := (etaOf b c (readGrp b x g)).1
  leBytes 1 g ++ leBytes 1 (rdNat b a 1) ++ leBytes 6 (rdNat b (a + 8) 6) ++ leBytes 8 (code64 e.1).toNat ++
  leBytes 6 (min (rdNat b (a + 0x40) 8) (2 ^ 48 - 1)) ++ leBytes 2 (min (rdNat b (a + 0x48) 8) 0xFFFF) ++
  leBytes 4 (min (rdNat b (a + 0x50) 8) 0xFFFFFFFF) ++ leBytes 4 (min (rdNat b (a + 0x58) 8) 0xFFFFFFFF)

/-- Logical index of the module (R328); 0 where no table is held. -/
def ownPlace (b : Block) : Nat := (placeOf b b.geo.own.toNat).getD 0

def recFlags (b : Block) (x : Ctx) : Nat :=
  (!x.seedSet).toNat + 2 * x.normSkip.toNat + 4 * (!utValid b x).toNat + 8 * x.replay.toNat + 16 * x.confidential.toNat

/-- The clamps counted as the step ends: the schedules' (R374), one where the table is not valid (R365), the forwarding
Reckoner's. -/
def stepEndClamps (b : Block) (c : Nat) : Nat :=
  let x := ctxOf b c
  sumOf ((recGroups b x).map fun g => (etaOf b c (readGrp b x g)).2) + (!utValid b x).toNat

/-- The record of the step in clear (R394), with the batch identifier and the clamps of STEPEND. -/
def recordBytes (b : Block) (c : Nat) (batch : U64) (clamps : Nat) : List Byte :=
  let x := ctxOf b c
  let gs := recGroups b x
  leBytes 4 0x4547444C ++ leBytes 1 1 ++ leBytes 1 c ++ leBytes 2 gs.length ++ leBytes 8 x.step.toNat ++
  leBytes 4 x.seq ++ leBytes 2 (ownPlace b) ++ leBytes 2 (recFlags b x) ++ leBytes 4 x.epoch.toNat ++
  leBytes 4 (min (cntSum b c [2] Cnt.solve) 0xFFFFFFFF) ++ leBytes 8 x.seed.toNat ++ leBytes 8 batch.toNat ++
  leBytes 8 x.norm.toNat ++ leBytes 8 x.clip.toNat ++ leBytes 16 x.scaleDigest.toNat ++
  leBytes 16 x.weightDigest.toNat ++ totals b c clamps ++
  ((List.range 12).flatMap (drkSummary b c)) ++
  ((List.range 16).flatMap fun n => leBytes 8 (tget x.lgf (0, 0) n).2.toNat) ++
  gs.flatMap (groupEntry b c)

/-- Shards of the module as (region, list index), in annex order (R399). -/
def allShards (b : Block) (x : Ctx) : List (Nat × Nat) :=
  if utValid b x then
    (List.range 12).flatMap fun k => (List.range (shardList b x k).2).map fun j => (k, j)
  else []

/-- The shard digest annex (R399). -/
def annexBytes (b : Block) (c : Nat) : List Byte :=
  let x := ctxOf b c
  let l := allShards b x
  let carried := min l.length 8192
  leBytes 4 0x41444853 ++ leBytes 4 l.length ++ leBytes 4 carried ++ leBytes 4 0 ++
  (l.take carried).flatMap fun s =>
    let d := tget x.shardDigest (0, 0) (s.1 * 2 ^ 32 + s.2)
    leBytes 1 s.1 ++ leBytes 3 0 ++ leBytes 4 s.2 ++ leBytes 8 d.1 ++ leBytes 16 d.2.toNat

/-! ### The ledger control block (R392) -/

def lcBase (x : Ctx) : Nat := controlPage x + 0x40000
def lcAnnex (b : Block) (x : Ctx) : Bool := (rdNat b (lcBase x) 1).testBit 0
def lcPairN (b : Block) (x : Ctx) : Nat := rdNat b (lcBase x + 4) 4
def lcPartner (b : Block) (x : Ctx) : Nat := rdNat b (lcBase x + 8) 2 % 2 ^ 15
def lcPairCnt (b : Block) (x : Ctx) : Nat := rdNat b (lcBase x + 0x10) 8
def lcHead (b : Block) (x : Ctx) : Nat := rdNat b (lcBase x + 0x18) 8
def lcTail (b : Block) (x : Ctx) : Nat := rdNat b (lcBase x + 0x20) 8

/-! ### Confidential units (R415) -/

/-- The nonce of a ledger unit: LR.SEQ, LR.STEP, unit kind. -/
def ledgerNonce (seq step kind : Nat) : List Byte := leBytes 4 seq ++ leBytes 6 step ++ leBytes 2 kind

/-- A unit as it leaves: in clear, or encrypted under the context's ledger key, a record keeping bytes 0x000 to 0x017
in clear. `head` is those bytes of the step's record. [DEDUCED, log 52] -/
def unitOut (x : Ctx) (kind : Nat) (head unit : List Byte) : List Byte :=
  if x.confidential then
    let n := ledgerNonce x.seq x.step.toNat kind
    if kind = 0 then head ++ Config.gcmSeal x.ledgerKey n head (unit.drop 24)
    else Config.gcmSeal x.ledgerKey n head unit
  else unit

/-- The units of the step: the record, and the annex where LC.ANNEX asks for it. -/
def stepUnits (b : Block) (c : Nat) (batch : U64) (clamps : Nat) : List (Nat × List Byte) :=
  let x := ctxOf b c
  let r := recordBytes b c batch clamps
  (0, unitOut x 0 (r.take 24) r) ::
    if lcAnnex b x then [(1, unitOut x 1 (r.take 24) (annexBytes b c))] else []

/-! ### The checkpoint manifest (R403, R404) -/

/-- A manifest entry: kind, group or region, index, fabric address, length. -/
structure MEntry where
  kind : Nat
  group : Nat
  index : Nat
  addr : U64
  len : Nat
deriving DecidableEq, Repr

def mEntryBytes (e : MEntry) : List Byte :=
  leBytes 1 e.kind ++ leBytes 1 e.group ++ leBytes 2 0 ++ leBytes 4 e.index ++ leBytes 8 e.addr.toNat ++
  leBytes 8 e.len ++ leBytes 8 0

/-- Every byte of [a, a + n) lies in the context's memory on this module. -/
def inCtxMem (b : Block) (c : Nat) (a : U64) (n : Nat) : Bool :=
  faModule a == b.geo.own &&
    (List.range (pageOf (faLocal a + n - 1) + 1 - pageOf (faLocal a))).all fun p =>
      owns b c ((pageOf (faLocal a) + p) * 0x200000)

/-- Bytes of a scale record's block array address (R63). -/
def blocksAddr (b : Block) (a : U64) : U64 := BitVec.ofNat 64 (rdNat b (faLocal a + 0x10) 8)

/-- An entry of the checkpoint list, or the clamp of a skipped one (R403). -/
def ckptEntry (b : Block) (c : Nat) (x : Ctx) (j : Nat) : Option MEntry :=
  let a := controlPage x + 0x20000 + 0x20 + 32 * j
  let kind := rdNat b a 1
  let addr := BitVec.ofNat 64 (rdNat b (a + 8) 8)
  let len := rdNat b (a + 16) 8
  if kind = 0x0A then
    if inCtxMem b c addr 5120 && (len = 0 || inCtxMem b c (blocksAddr b addr) len) then
      some ⟨0x0A, 0, j, addr, len⟩ else none
  else if kind = 0x0C then (if inCtxMem b c addr (max len 1) then some ⟨0x0C, 0, j, addr, len⟩ else none)
  else none

/-- The checkpoint list: entries in order and the clamps counted in the chip block. -/
def ckptList (b : Block) (c : Nat) (x : Ctx) : List MEntry × Nat :=
  let n := rdNat b (controlPage x + 0x20000) 4
  let l := (List.range (min n 4095)).map (ckptEntry b c x)
  (l.filterMap id, (decide (n > 4095)).toNat + (l.filter Option.isNone).length)

/-- The entries of one shard: record, counter, arrays, copy and its scale record. -/
def shardEntries (b : Block) (x : Ctx) (s : Nat × Nat) : List MEntry :=
  let a := shardRec b x s.1 s.2
  let h := readShard b a
  let g := readGrp b x h.group
  let w := grpWidth g
  let e (kind : Nat) (ad : U64) (n : Nat) : MEntry := ⟨kind, s.1, s.2, ad, n⟩
  let d := (readDesc true h.copy).1
  let per := settElems d
  [e 0x03 (ownAddr b a) 128, e 0x04 (ownAddr b h.counter) 8, e 0x05 (ownAddr b h.master) (h.n * w),
   e 0x06 (ownAddr b h.mom) (h.n * w)] ++
  (if grpRule g = 2 then [] else [e 0x07 (ownAddr b h.var) (h.n * w)]) ++
  (if dbits h.copy 11 53 = 0 || d.fmt.isNone then []
   else
    e 0x08 d.base ((h.n + per - 1) / per * 2048) ::
      (if d.sr = 0 then []
       else
        let p := blocksAddr b d.sr
        e 0x09 d.sr 5120 :: (if p = 0 then [] else [e 0x09 p (h.n / 256)])))

/-- The manifest's entries in order; the ledger record comes last, at address 0. [DEDUCED, log 52] -/
def manifestEntries (b : Block) (c recLen : Nat) : List MEntry × Nat :=
  let x := ctxOf b c
  let l := ckptList b c x
  let scheds := (recGroups b x).filterMap fun g =>
    let sa := (readGrp b x g).sched
    match (if sa = 0 then Where.bad else whereIs b c sa) with
    | .mem key =>
      let k0 := rdNat b key 1
      some (⟨0x02, g, 0, sa, 16 + 16 * (if k0 = 0 then 1 else min k0 64)⟩ : MEntry)
    | _ => none
  let norm : List MEntry := if utValid b x && utNormHome b x != 0xFFFF then
    [⟨0x0E, 0, 0, ownAddr b (rdNat b (utBase x + 0x28) 8), 512⟩] else []
  ([(⟨0x01, 0, 0, ownAddr b (utBase x), 33536⟩ : MEntry)] ++ scheds ++ (allShards b x).flatMap (shardEntries b x) ++ norm ++
    (l.1.flatMap fun e =>
      if e.kind = 0x0A then
        { e with len := 5120 } :: (if e.len = 0 then [] else [⟨0x0B, 0, e.index, blocksAddr b e.addr, e.len⟩])
      else []) ++
    l.1.filter (·.kind == 0x0C) ++ [⟨0x0D, 0, 0, 0, recLen⟩], l.2)

/-- The manifest's header: step s, flags, and the seed in force for step s + 1. -/
def manifestHeader (b : Block) (c s : Nat) (pairOk : Bool) (n : Nat) : List Byte :=
  let x := ctxOf b c
  leBytes 4 0x54504B43 ++ leBytes 2 1 ++
  leBytes 2 (pairOk.toNat + 2 * x.confidential.toNat + 4 * (!x.seedSet).toNat) ++ leBytes 8 s ++
  leBytes 4 x.epoch.toNat ++ leBytes 2 (ownPlace b) ++ leBytes 2 0 ++ leBytes 8 x.seed.toNat ++ leBytes 4 n ++
  leBytes 28 0

/-- Content of an entry: the record, or memory of this module, as zeros where a word of it cannot be corrected, which raises
its fault (R168, R268). -/
def entryContent (b : Block) (e : MEntry) (record : List Byte) : Block × List Byte :=
  if e.kind = 0x0D then (b, record)
  else
    let r := readOwn b (faLocal e.addr) e.len
    match r.1.2 with
    | none => (r.1.1, r.2)
    | some k => (memFault r.1.1 k, List.replicate e.len 0)

/-- A confidential fragment of entry i (R469): at most 8 192 bytes with its tag. [DEDUCED, log 52] -/
def sealedContent (x : Ctx) (s i : Nat) (header d : List Byte) : List Byte :=
  let key := kdf x.ckptKey (ascii "CKPT ENTRY" ++ leBytes 4 i ++ leBytes 6 s)
  (List.range (max 1 ((d.length + 8175) / 8176))).flatMap fun f =>
    Config.gcmSeal key (leBytes 6 f ++ leBytes 6 s) header ((d.drop (8176 * f)).take 8176)

/-- Send the manifest and then the content of each entry, in order (R402). [DEDUCED, log 52] -/
def sendCheckpoint (b : Block) (c s : Nat) (pairOk : Bool) (record : List Byte) : Block × Nat :=
  let x := ctxOf b c
  let m := manifestEntries b c record.length
  let h := manifestHeader b c s pairOk m.1.length
  let b1 := blkClamp (streamUnit b x.session 0x06 c 0 0 (h ++ m.1.flatMap mEntryBytes)) 0 m.2
  let b2 := (List.range m.1.length).foldl (fun z i =>
    let e := m.1.getD i ⟨0, 0, 0, 0, 0⟩
    let d := entryContent z e record
    streamUnit d.1 x.session 0x07 c i 0 (if x.confidential then sealedContent x s i h d.2 else d.2)) b1
  (b2, m.1.length)

end Sys2Proof.Machine
end

