-- ==== Sys2Proof/Machine/Ledger.lean ====
section
/-!
DEFINITION. Closing a step (R204, R382), replay (R406 to R409, R416), pair checks (R413, R414), checkpoints (R402), the
fleet test triggers (R503) and the step limit (R426).
-/
namespace Sys2Proof.Machine

/-! ### STEPEND waits -/

/-- STEPEND (R204): the tile waits until the step closes. -/
def stependEff (u : UnitId) (o : Ops) (b : Block) : Block :=
  let w := mkWord 0x1C 0x01 o
  issue b u w (isTile u && legalStepend o) fun c i => park b c u i .stepEnd w

/-- Tiles that take part in the step: started by the context and not faulted, ascending (R204). -/
def participants (b : Block) (c : Nat) : List Nat :=
  (b.units.filter fun e => e.1 / 65536 == c && e.1 % 16 == 0 && e.2.started &&
    !(tileHw b (e.1 % 65536 / 16)).faulted).map fun e => e.1 % 65536 / 16

def tileUnit (t : Nat) : UnitId := .tile (tile1152 t)

/-- The word of a STEPEND the tile waits in. -/
def stepWord (b : Block) (c t : Nat) : Option U64 :=
  match (img b c (tileUnit t)).run with
  | .waiting .stepEnd w => some w
  | _ => none

/-- Every Reckoner, Derrick and fabric engine of the context is idle. [DEDUCED, log 48] -/
def unitsIdle (b : Block) (c : Nat) : Bool :=
  (List.range 12).all fun k =>
    [UnitId.reckoner (region12 k), .derrick (region12 k), .engine (region12 k)].all fun u =>
      waits b c u && noWork b c u

/-- The conditions of steps 1 and 2 of R204. -/
def stepReady (b : Block) (c : Nat) : Bool :=
  let ts := participants b c
  (ctxOf b c).st == .runnable && !ts.isEmpty &&
    (ts.all fun t => (stepWord b c t).isSome && !scopeOpen b c (tileUnit t) fun _ => true) && unitsIdle b c

/-- The batch identifier, and one clamp where the tiles name different ones. -/
def batchId (b : Block) (c : Nat) : U64 × Nat :=
  let vs := (participants b c).map fun t =>
    sreg (img b c (tileUnit t)) (((stepWord b c t).getD 0).extractLsb' 42 5)
  match vs with
  | [] => (0, 0)
  | v :: r => (v, (r.any (· != v)).toNat)

/-! ### Replay -/

/-- Where the reference ring is read: past a wrap marker, at the ring's start (R406). -/
def refTail (b : Block) (x : Ctx) : Nat :=
  let t := lcTail b x
  if t < lcHead b x ∧ rdNat b (controlPage x + 0x100000 + t % 2 ^ 20) 4 = 0 then (t / 2 ^ 20 + 1) * 2 ^ 20 else t

def refPresent (b : Block) (x : Ctx) (t : Nat) : Bool := decide (t < lcHead b x)

def refRaw (b : Block) (x : Ctx) (t n : Nat) : List Byte := rdKeys b (controlPage x + 0x100000 + t % 2 ^ 20) n

/-- The reference record at `t` in clear, and its length in the ring; none where authentication fails (R416). -/
def refRecord (b : Block) (x : Ctx) (t : Nat) : Option (List Byte) × Nat :=
  let n := 512 + 32 * leNat (refRaw b x (t + 6) 2)
  if x.confidential then
    let head := refRaw b x t 24
    let nonce := ledgerNonce (leNat ((head.drop 16).take 4)) (leNat ((head.drop 8).take 6)) 0
    ((Config.gcmOpen x.ledgerKey nonce head (refRaw b x (t + 24) (n - 8))).map (head ++ ·), n + 16)
  else (some (refRaw b x t n), n)

/-- The reference annex at `t`, by the record it follows; `len` is the length of the own annex. [DEDUCED, log 52] -/
def refAnnex (b : Block) (x : Ctx) (head : List Byte) (t len : Nat) : Option (List Byte) × Nat :=
  if x.confidential then
    let nonce := ledgerNonce (leNat ((head.drop 16).take 4)) (leNat ((head.drop 8).take 6)) 1
    (Config.gcmOpen x.ledgerKey nonce head (refRaw b x t (len + 16)), len + 16)
  else
    let n := 16 + 32 * leNat (refRaw b x (t + 8) 4)
    (some (refRaw b x t n), n)

def roundUp64 (n : Nat) : Nat := (n + 63) / 64 * 64

/-- A reference record is of this step and place. -/
def refMatches (b : Block) (x : Ctx) (r : List Byte) : Bool :=
  leNat (r.take 4) == 0x4547444C && leNat ((r.drop 8).take 6) == x.step.toNat && leNat ((r.drop 20).take 2) == ownPlace b

/-- DRK_FORCE of a Derrick from its reference summary (R407). -/
def forceOf (s : List Byte) : U32 :=
  let r := leNat ((s.drop 4).take 2)
  if r = 0xFFFF then 0
  else BitVec.ofNat 32 (r + 65536 * (leNat ((s.drop 6).take 2) % 512) + 2 ^ 25)

/-- Before a step of a replay: wait for its reference record, then force the Derricks by it (R406, R407). -/
def beginStep (b : Block) (c : Nat) : Block :=
  let x := ctxOf b c
  if x.replay then
    let t := refTail b x
    if refPresent b x t then
      let r := (refRecord b x t).1
      let b1 := setCtx b c { x with phase := .none }
      (List.range 12).foldl (fun z k =>
        let f := match r with
          | some y => if refMatches b x y then forceOf ((y.drop (0x0C0 + 16 * k)).take 16) else 0
          | none => 0
        setRound z c k fun y => { y with force := f }) b1
    else setCtx b c { x with phase := .refWait }
  else b

/-- A difference: part, field offset, width, index, reference and new bytes. -/
structure Diff where
  part : Nat
  field : Nat
  width : Nat
  index : Nat
  ref : List Byte
  new : List Byte
deriving DecidableEq, Repr

/-- The compared and forced fields of the header: offset, width, mask (R395). -/
def headerFields : List (Nat × Nat × Nat) :=
  let full (n : Nat) : Nat := 2 ^ (8 * n) - 1
  [(0x006, 2, full 2), (0x016, 2, 0x0007), (0x01C, 4, full 4), (0x020, 8, full 8), (0x028, 8, full 8), (0x030, 8, full 8),
   (0x038, 8, full 8), (0x040, 16, full 16), (0x050, 16, full 16)] ++
  ((List.range 12).map fun j => (0x060 + 8 * j, 8, full 8)) ++
  ((List.range 12).flatMap fun k =>
    [(0x0C0 + 16 * k, 2, 0xFFFD), (0x0C2 + 16 * k, 2, full 2), (0x0C4 + 16 * k, 2, full 2), (0x0C6 + 16 * k, 2, full 2),
     (0x0C8 + 16 * k, 2, full 2), (0x0CA + 16 * k, 2, full 2), (0x0CE + 16 * k, 2, full 2)]) ++
  ((List.range 16).map fun j => (0x180 + 8 * j, 8, full 8))

def plainFields (l : List (Nat × Nat)) : List (Nat × Nat × Nat) := l.map fun f => (f.1, f.2, 2 ^ (8 * f.2) - 1)
def groupFields : List (Nat × Nat × Nat) :=
  plainFields [(0, 1), (1, 1), (2, 6), (8, 8), (16, 6), (22, 2), (24, 4), (28, 4)]
def annexFields : List (Nat × Nat × Nat) := plainFields [(0, 1), (4, 4), (8, 8), (16, 16)]

/-- The first differing field of one part's entry. -/
def diffFields (part index : Nat) (fs : List (Nat × Nat × Nat)) (ref new : List Byte) : Option Diff :=
  (fs.find? fun f =>
    leNat ((ref.drop f.1).take f.2.1) &&& f.2.2 != leNat ((new.drop f.1).take f.2.1) &&& f.2.2).map fun f =>
      { part := part, field := f.1, width := f.2.1, index := index, ref := (ref.drop f.1).take f.2.1,
        new := (new.drop f.1).take f.2.1 }

/-- The first of a list of comparisons that differs. -/
def firstDiff (l : List (Option Diff)) : Option Diff := (l.find? Option.isSome).getD none

/-- Part 3: the reference unit is missing or does not match. -/
def missingRef (ref new : List Byte) : Diff :=
  { part := 3, field := 0, width := 16, index := 0, ref := ref.take 16, new := new.take 16 }

def diffRecord (ref new : List Byte) : Option Diff :=
  let g := leNat ((new.drop 6).take 2)
  firstDiff (diffFields 0 0 headerFields ref new ::
    (List.range g).map fun j => diffFields 1 j groupFields ((ref.drop (512 + 32 * j)).take 32) ((new.drop (512 + 32 * j)).take 32))

def diffAnnexEntries (ref new : List Byte) : Option Diff :=
  firstDiff ((List.range (leNat ((new.drop 8).take 4))).map fun j =>
    diffFields 2 j annexFields ((ref.drop (16 + 32 * j)).take 32) ((new.drop (16 + 32 * j)).take 32))

def diffAnnex (ref new : List Byte) : Option Diff :=
  if leNat (ref.take 4) ≠ leNat (new.take 4) then some (missingRef ref new)
  else match diffFields 2 0xFFFF (plainFields [(4, 4), (8, 4)]) ref new with
    | some d => some d
    | none => diffAnnexEntries ref new

/-- The comparison of R408: the first difference, the annex entry the report names beside it, and where the ring is
read on. -/
def compareStep (b : Block) (c : Nat) (rec_ annex : List Byte) : Option Diff × Option (Nat × Nat) × Nat :=
  let x := ctxOf b c
  let t := refTail b x
  let r := refRecord b x t
  match r.1 with
  | none => (some (missingRef (refRaw b x t 16) rec_), none, t)
  | some ref =>
    if refMatches b x ref then
      let t1 := t + roundUp64 r.2
      if lcAnnex b x then
        let ta := refTail (wrNat b (lcBase x + 0x20) 8 t1) x
        let z := refAnnex b x (ref.take 24) ta annex.length
        let present := refPresent b x ta && (x.confidential || leNat (refRaw b x ta 4) == 0x41444853)
        match (if present then z.1 else none) with
        | some ra =>
          let d := (diffRecord ref rec_).or (diffAnnex ra annex)
          let named := match d, (if ra.take 12 = annex.take 12 then diffAnnexEntries ra annex else none) with
            | some d, some e =>
              if d.part = 1 ∨ d.part = 2 ∨ (d.part = 0 ∧ d.field = 0x050) then
                some ((leNat (((annex.drop (16 + 32 * e.index)).take 1))), leNat ((annex.drop (20 + 32 * e.index)).take 4))
              else none
            | _, _ => none
          (d, named, ta + roundUp64 z.2)
        | none =>
          let seen := if refPresent b x ta && x.confidential then refRaw b x ta 16 else []
          ((diffRecord ref rec_).or (some (missingRef seen annex)), none, t1)
      else
        let ta := refTail (wrNat b (lcBase x + 0x20) 8 t1) x
        if !x.confidential && refPresent b x ta && leNat (refRaw b x ta 4) == 0x41444853 then
          ((diffRecord ref rec_).or (some (missingRef (refRaw b x ta 16) [])), none, ta)
        else (diffRecord ref rec_, none, t1)
    else (some (missingRef ref rec_), none, t)

/-- The difference report (R409). -/
def reportBytes (b : Block) (step : Nat) (d : Diff) (named : Option (Nat × Nat)) : List Byte :=
  let z (l : List Byte) : List Byte := (List.range 16).map fun j => l.getD j 0
  leBytes 8 step ++ leBytes 2 (ownPlace b) ++ leBytes 1 d.part ++ leBytes 1 d.width ++ leBytes 2 d.field ++
  leBytes 2 d.index ++ leBytes 1 (match named with | some n => n.1 | none => 0xFF) ++ leBytes 3 0 ++
  leBytes 4 (match named with | some n => n.2 | none => 0) ++ z d.ref ++ z d.new ++ leBytes 8 0

/-! ### Fleet test runs -/

/-- Patterns of an installed package that a mask selects and whose target kind names nothing (R498). -/
def oddPatterns (b : Block) (pkg mask : Nat) : Nat :=
  match b.ft.pkgs.find? fun p => p.1 == pkg with
  | none => 0
  | some p =>
    let x := p.2.2
    ((List.range (min 64 (leNat ((x.drop 10).take 1)))).filter fun j =>
      mask.testBit j && decide (12 ≤ leNat ((x.drop (0x16E5 + 32 * j + 4)).take 1))).length

/-- A run begins (R500, R501, R503): number, package, trigger code, the context it halted, what it covers. Patterns that
it skips count one clamp each (R498). -/
def startRun (b : Block) (pkg trigger : Nat) (ctx : Option Nat) (sel : RunSel) : Block :=
  let n := b.ft.runNo
  blkClamp { b with ft := { b.ft with
    st := 1, pkg := BitVec.ofNat 8 pkg, trigger := BitVec.ofNat 3 trigger, runNo := n + 1,
    run := some { num := n, pkg := pkg, trigger := trigger, ctx := ctx, sel := sel } } }
    0 (oddPatterns b pkg sel.patterns.toNat)

/-- A trigger's run (R503): every pattern of the package that FT_TRIG names, once, on all regions and all present buses, at
nominal conditions and at the margins that it selects. -/
def triggerRun (b : Block) (trigger c : Nat) : Block :=
  let t := b.ft.trig
  startRun b (t.toNat / 256 % 256) trigger (some c)
    { volt := (t.getLsbD 17).toNat, clk := (t.getLsbD 16).toNat, buses := b.geo.capBuses }

/-- The lowest trigger code that fires at this STEPEND (R503): 1 pair mismatch, 2 NaN burst, 3 seam saturation. -/
def firedTrigger (b : Block) (rec_ : List Byte) (pairBad : Bool) : Option Nat :=
  let t := b.ft.trig
  let f (o : Nat) : Nat := leNat ((rec_.drop o).take 8)
  if t.getLsbD 0 && pairBad then some 1
  else if t.getLsbD 1 && decide (2 ^ (t.toNat / 8 % 32) ≤ f 0x068) then some 2
  else if t.getLsbD 2 && decide (1 ≤ f 0x080) then some 3
  else none

/-! ### Finishing a step -/

/-- The group counters after the record (R382). -/
def advanceGroups (b : Block) (c : Nat) : Block :=
  let x := ctxOf b c
  if utValid b x then
    let b1 := (List.range 256).foldl (fun z g =>
      let a := grpBase x g
      let p := readGrp z x g
      let hold := grpFrozen p || p.flags.testBit 5 || (grpNorm p && x.normSkip)
      let z1 := if grpValid p && !hold then wrNat z (a + 8) 6 ((p.step + 1) % 2 ^ 48) else z
      (writeMem z1 (a + 0x38) (a + 0x38) (List.replicate 40 0)).1) b
    addMem64 b1 (utBase x + 0x10) 1
  else b

/-- The seed in force at the next step: the last write of the writer of lowest SYS.UNIT (R152). -/
def promoteSeed (x : Ctx) : Ctx :=
  match x.seedPend with
  | [] => x
  | e :: _ => { x with seed := e.2, seedSet := true, seedPend := [] }

/-- The context's step state after its record is written: the next step begins with every field at 0. -/
def nextStep (x : Ctx) : Ctx :=
  { promoteSeed x with
    step := x.step + 1, lgf := [], stepClamps := 0, scaleDigest := 0, weightDigest := 0, shardDigest := [], norm := 0,
    clip := 0x3FF0000000000000, normSkip := false, record := [], phase := .none }

/-- What the Derricks and Reckoners keep per step is cleared: rounds, cut level, summary, partial digest, skip flag. -/
def clearRegionStep (b : Block) (c : Nat) : Block :=
  (List.range 12).foldl (fun z k =>
    let d := drkOf z k
    let y := tget d.ctx {} c
    let d1 := { d with
      queue := d.queue.filter fun q => !(q.ctx == c && q.step == (ctxOf z c).step.toNat)
      ctx := tput d.ctx {} c { tapeBase := y.tapeBase, tapeTop := y.tapeTop, tape := y.tape } }
    let r := rckOf z k
    setRck (setDrk z k d1) k { r with
      last := tget r.digest 0 c, digest := tdel r.digest c, skip := tdel r.skip c
      formed := r.formed.filter fun n => n / 256 != c }) b

/-- The event counters of the context are cleared, the memory controllers' for it too (R204, R396). -/
def clearCounters (b : Block) (c : Nat) : Block :=
  let b1 := { b with
    units := b.units.map (fun e => if e.1 / 65536 = c then (e.1, { e.2 with cnt := {} }) else e)
    ct := { b.ct with nangen := tdel b.ct.nangen c } }
  (List.range 12).foldl (fun z k => setMc z k { mcOf z k with nangen := tdel (mcOf z k).nangen c }) b1

/-- Every participating STEPEND writes s + 1 and retires. -/
def retireSteps (b : Block) (c : Nat) (s1 : U64) : Block :=
  (participants b c).foldl (fun z t =>
    let i := img z c (tileUnit t)
    match stepWord z c t with
    | some w => retire z c (tileUnit t) (setS i (w.extractLsb' 47 5) s1)
    | none => z) b

/-- Another resident context is runnable: the one that ran switches out (R467). [DEDUCED, log 94] -/
def yieldCtx (b : Block) (c : Nat) : Block :=
  if b.ctxs.any fun e => e.1 != c && e.2.st == .runnable then { b with running := none, lastRan := c } else b

/-- What goes with the record: the counters it has taken are cleared, and the groups advance (R204, R382). -/
def recordDone (b : Block) (c : Nat) : Block := clearCounters (clearRegionStep (advanceGroups b c) c) c

/-- Step 4 of R204: the step ends, and every STEPEND retires. -/
def finishStep (b : Block) (c : Nat) : Block :=
  let x := ctxOf b c
  retireSteps (setCtx b c (nextStep x)) c ((x.step + 1).setWidth 64)

/-- What follows a closed step (R402, R467, R503): a fired trigger halts the context and starts a run; a checkpoint of
this step halts it; otherwise the next step begins or another context runs. -/
def afterStep (b : Block) (c s : Nat) (rec_ : List Byte) (replay passed : Bool) : Block :=
  let ck := (ctxOf b c).ckStep == some s
  let b1 := if ck then
      let x := ctxOf b c
      let z := sendCheckpoint (setCtx b c { x with ckStep := none }) c s passed rec_
      sendEvent (haltCtx z.1 c .haltedStep) { kind := 7, ctx := c, body := [BitVec.ofNat 64 s, BitVec.ofNat 64 z.2] }
    else b
  match (if replay then none else firedTrigger b rec_ false) with
  | some t => triggerRun (haltCtx b1 c .haltedStep) t c
  | none => if ck then b1 else yieldCtx (beginStep b1 c) c

/-! ### Pair checks (R413, R414) -/

/-- A check is due at the step: its interval and the run's first step name it. -/
def pairDue (b : Block) (c : Nat) : Bool :=
  let x := ctxOf b c
  let n := lcPairN b x
  n != 0 && decide (utS0 b x ≤ x.step.toNat + 1) && (x.step.toNat + 1 - utS0 b x) % n == 0

/-- The pair message of the step. -/
def pairMessage (x : Ctx) : List Byte :=
  leBytes 8 x.step.toNat ++ leBytes 16 x.weightDigest.toNat ++ leBytes 16 x.scaleDigest.toNat ++ leBytes 8 x.norm.toNat ++
  leBytes 8 x.clip.toNat ++ leBytes 8 0

/-- The tile whose port carries the check's messages: the lowest participating one. [DEDUCED, log 53] -/
def pairTile (b : Block) (c : Nat) : UnitId := tileUnit ((participants b c).headD 0)

/-- Send the pair message by a PUTS of 64 bytes and count the check; the record stands beside it until the check ends (R413).
[DEDUCED, log 53] -/
def sendPair (b : Block) (c : Nat) (rec_ : List Byte) : Block :=
  let x := ctxOf b c
  let q := x.pairQ + 1
  let to_ (o : Nat) : U64 := BitVec.ofNat 64 (lcPartner b x * 2 ^ 49 + (lcBase x + o) % 2 ^ 49)
  startOp (setCtx b c { x with pairQ := q, record := rec_, phase := .pairWait }) c (pairTile b c) (.signal (to_ 0x10) 1)
    (putPieces (to_ (0x40 + 64 * (q % 2))) (pairMessage x))

/-- Event 0x06: step and both places. -/
def pairEvent (b : Block) (c : Nat) : Event :=
  let x := ctxOf b c
  { kind := 6, ctx := c, body := [x.step.setWidth 64, BitVec.ofNat 64 (ownPlace b),
      BitVec.ofNat 64 ((placeOf b (lcPartner b x)).getD 0)] }

/-- The check fails (R413, R414): the record is written, the groups have advanced, STEPEND does not retire, the context halts and
the host hears of it; a PAIR trigger starts a run. [DEDUCED, log 53] -/
def pairFail (b : Block) (c : Nat) : Block :=
  let x := ctxOf b c
  let fired := if x.replay then none else firedTrigger b x.record true
  let b1 := sendEvent (haltCtx (setCtx b c { x with phase := .pairFailed }) c .haltedStep) (pairEvent b c)
  match fired with
  | some t => triggerRun b1 t c
  | none => b1

/-- PAIR_CHECK: once the partner's message and the own fence have come, the messages are compared. -/
def pairCheck (b : Block) : Block :=
  match b.running with
  | none => b
  | some c =>
    let x := ctxOf b c
    let m := lcPartner b x
    let u := pairTile b c
    if x.phase = .pairWait ∧ x.pairQ ≤ lcPairCnt b x ∧ scopeOpen b c u (fun n => n.toNat == m) = false then
      let met := readOwn b (lcBase x + 0x40 + 64 * (x.pairQ % 2)) 56
      let theirs := met.2
      let b2 := met.1.1
      let refused := tget (img b2 c u).refus 0 m
      let i := img b2 c u
      let b1 := setImg b2 c u { i with refus := tput i.refus 0 m 0 }
      if met.1.2.isSome then (match met.1.2 with | some e => memFault b2 e | none => b2)
      else if refused = 0 ∧ theirs = (pairMessage x).take 56 then
        afterStep (finishStep b1 c) c x.step.toNat x.record x.replay true
      else pairFail b1 c
    else b

/-! ### Closing -/

/-- The record and the annex enter the ring and leave for the host (R393, R400). -/
def writeUnits (b : Block) (c : Nat) (us : List (Nat × List Byte)) : Block :=
  let x := ctxOf b c
  let b1 := setCtx b c { x with seq := x.seq + 1 }
  us.foldl (fun z u => ringPut z c u.1 x.seq u.2) b1

/-- The forwarding Reckoner counts one clamp for each entry of UT.SHARDS of an absent region, in every step (R377).
[DEDUCED, log 42] -/
def absentClamps (b : Block) (c : Nat) : Block :=
  let x := ctxOf b c
  match forwarder b with
  | some k =>
    if utValid b x then
      rckClamp b c k ((List.range 12).filter fun j => !b.geo.regions.getLsbD j && (shardList b x j).2 != 0).length
    else b
  | none => b

/-- What firmware reads of the context's tables as a step closes, by address and length: the ledger control block, the update
table, and at replay the head of the reference record and the record. -/
def closeReads (b : Block) (c : Nat) : List (Nat × Nat) :=
  let x := ctxOf b c
  let t := refTail b x
  [(lcBase x, 64)] ++ (if utValid b x then [(utBase x, 33536)] else []) ++
    if x.replay && refPresent b x t then [(controlPage x + 0x100000 + t % 2 ^ 20, (refRecord b x t).2)] else []

/-- Firmware's reads meet the memory code (R268): the block after them, and the uncorrectable word that stops them. -/
def meetClose (b : Block) (c : Nat) : Block × Option Nat :=
  (closeReads b c).foldl (fun z r =>
    let y := readMem z.1 r.1 r.1 r.2
    (y.1, z.2.or y.2)) (b, none)

/-- Steps 3 and 4 of R204, with room in the ring. -/
def closeMet (b0 : Block) (c : Nat) : Block :=
  let b := absentClamps b0 c
  let x := ctxOf b c
  let bat := batchId b c
  let own := stepEndClamps b c + bat.2
  let rec_ := recordBytes b c bat.1 own
  let annex := if lcAnnex b x then annexBytes b c else []
  let us := stepUnits b c bat.1 own
  if ringRoom x (sumOf (us.map fun u => u.2.length)) then
    let b1 := recordDone (writeUnits b c us) c
    if x.replay then
      let d := compareStep b1 c rec_ annex
      let b2 := wrNat b1 (lcBase x + 0x20) 8 d.2.2
      match d.1 with
      | some df =>
        let r := reportBytes b x.step.toNat df d.2.1
        let e : Event := { kind := 5, ctx := c, body := [], raw := unitOut x 2 (rec_.take 24) r }
        sendEvent (haltCtx (finishStep b2 c) c .haltedStep) e
      | none => if pairDue b2 c then sendPair b2 c rec_ else afterStep (finishStep b2 c) c x.step.toNat rec_ true false
    else if pairDue b1 c then sendPair b1 c rec_
    else afterStep (finishStep b1 c) c x.step.toNat rec_ false false
  else setCtx b0 c { x with phase := .ringWait }

/-- Steps 3 and 4 of R204; a word of the tables that the memory code cannot correct is delivered nowhere, and its fault halts
the context before the step closes (R10, R268). [DEDUCED, log 98] -/
def closeStep (b : Block) (c : Nat) : Block :=
  let m := meetClose b c
  match m.2 with
  | none => closeMet m.1 c
  | some e => memFault m.1 e

/-- STEP_CLOSE: once the waits of R204 hold, the step closes. -/
def stepClose (b : Block) : Block :=
  match b.running with
  | none => b
  | some c => if (ctxOf b c).phase = .none ∧ stepReady b c = true then closeStep b c else b

/-- LEDGER_RING_WAIT_END: a STEPEND that waited for room in the ring proceeds when there is room (R400). -/
def ringWaitEnd (b : Block) : Block :=
  match b.running with
  | none => b
  | some c => if (ctxOf b c).phase = .ringWait then closeStep b c else b

/-- STEP_LIMIT_EXPIRY (R204, R413, R426): the running context halts; no record is written, unless it waited in a pair
check, whose halt and event follow as well. [DEDUCED, log 53] -/
def stepLimit (b : Block) : Block :=
  match b.running with
  | none => b
  | some c =>
    let x := ctxOf b c
    if x.phase = .pairWait then
      sendEvent (pairFail b c) { kind := 4, ctx := c, body := [x.step.setWidth 64] }
    else
      sendEvent (haltCtx (setCtx b c { x with phase := if x.phase = .pairFailed then .pairFailed else .none }) c
        .haltedFault)
        { kind := 4, ctx := c, body := [x.step.setWidth 64] }

end Sys2Proof.Machine
end

