-- ==== Sys2Proof/Machine/Link.lean ====
section
/-!
DEFINITION. Links: states and training (R312 to R316, R465), the receiver (R302 to R305, R309), link-control flits (R308),
delivery and transit of flits (R293, R303, R311, R317 to R320, R353), and phase remap (R348 to R350).
-/
namespace Sys2Proof.Machine

/-! ### Links that go down and come up -/

/-- A waiting flit holds no place in a receive buffer of link k any more. -/
def forgetSrc (k : Nat) (e : Queued) : Queued := if e.src.map Prod.fst = some k then { e with src := none } else e

/-- What waits no longer holds places in the receive buffers of link k. -/
def forgetBuffers (b : Block) (k : Nat) : Block :=
  (List.range 32).foldl (fun z j =>
    setLink z j { linkOf z j with queue := (linkOf z j).queue.map (forgetSrc k) }) b

/-- A link goes down to a state: its unacknowledged flits are discarded, the flits not yet sent move to the other links
of its direction (R310). [DEDUCED, log 60] -/
def dropLink (b : Block) (k : Nat) (st : BitVec 4) : Block :=
  let l := linkOf b k
  let b1 := forgetBuffers (setLinkSt (setLink b k { l with replay := [], queue := [], replays := 0, nak := false }) k st) k
  match (dirLinks b1 l.dir.toNat).find? fun j => j != k && linkUsable b1 j with
  | some j => drainLink (setLink b1 j { linkOf b1 j with queue := (linkOf b1 j).queue ++ l.queue }) j
  | none => setLink b1 k { linkOf b1 k with queue := l.queue }

/-- A training or an agreement failed. -/
def failLink (b : Block) (k : Nat) : Block := dropLink b k 9

/-- Replay every flit from sequence number `seq` on (R309). -/
def replayFrom (b : Block) (k seq : Nat) : Block :=
  let l := linkOf b k
  let fs := l.replay.filter fun e => decide (seq ≤ e.seq)
  if fs.isEmpty then b
  else
    { setLink b k { l with retry := satAdd l.retry fs.length, replays := l.replays + 1 } with
      egress := b.egress ++ fs.map fun e => .replay k e.seq }

/-- The link reaches UP: unacknowledged flits are replayed, waiting ones leave (R310). -/
def linkToUp (b : Block) (k : Nat) : Block :=
  let b1 := setLinkSt b k 7
  drainLink (replayFrom b1 k 0) k

/-- Training starts again at EQUALIZE (R313). -/
def retrain (b : Block) (k : Nat) : Block :=
  let l := linkOf b k
  setLinkSt (setLink b k { l with retrain := satAdd l.retrain 1, replays := 0 }) k 2

/-- LINK_RETRAIN (R310): cause 0, the oldest flit has been replayed 8 times; 1, a lane lost its signal; any other
cause, a training in progress failed. -/
def linkRetrain (k cause : Nat) (b : Block) : Block :=
  let l := linkOf b k
  if cause = 0 then (if linkUsable b k && decide (8 ≤ l.replays) then retrain b k else b)
  else if cause = 1 then (if linkUsable b k then retrain b k else b)
  else if 2 ≤ l.st.toNat ∧ l.st.toNat ≤ 4 then failLink b k else b

/-- LINK_DETECT (R313): the lanes on which this end, and the other end, see signal. A training that begins here agrees
new keys: only a retrain keeps them. -/
def linkDetect (k : Nat) (lanes : LinkSignal) (b : Block) : Block :=
  let st := (linkOf b k).st
  if (st = 0 ∨ st = 1) ∧ (linkOf b k).disable = false then
    if 8 ≤ popcount 9 lanes.here.toNat ∧ 8 ≤ popcount 9 lanes.there.toNat then
      setLinkSt (setLink b k { linkOf b k with keyed := false }) k 2
    else setLinkSt b k 1
  else b

def linkEqualize (k : Nat) (b : Block) : Block := if (linkOf b k).st = 2 then setLinkSt b k 3 else b

/-- LINK_TEST (R315): bit errors of data lanes 0 to 7 and of the spare; a lane passes below 2 148. -/
def linkTest (k : Nat) (errs : List Nat) (b : Block) : Block :=
  let l := linkOf b k
  if l.st = 3 then
    let bad := (List.range 8).filter fun j => decide (2148 ≤ errs.getD j 0)
    match bad with
    | [] => setLinkSt (setLink b k { l with spared := 15 }) k 4
    | [j] => if errs.getD 8 0 < 2148 then setLinkSt (setLink b k { l with spared := BitVec.ofNat 4 j }) k 4 else failLink b k
    | _ => failLink b k
  else b

def linkAlign (k : Nat) (b : Block) : Block := if (linkOf b k).st = 4 then setLinkSt b k 5 else b

/-- The module at the neighbouring coordinate in a direction, by the route table. -/
def neighbour (b : Block) (dir : Nat) : Option Nat :=
  let a := dir / 2
  let e := coordOf b.geo.extent a
  let c := coordOf b.geo.coord a
  let j := if dir % 2 = 0 then (c + 1) % e else (c + e - 1) % e
  let want := BitVec.ofNat 32 (b.geo.coord.toNat - c * 256 ^ a + j * 256 ^ a)
  (b.fab.route.find? fun x => x.2 == want).map Prod.fst

/-- The identity of the other end agrees with the cabling rule, and with the route table where one is held (R312,
R482). -/
def identOk (b : Block) (k : Nat) (peer : BitVec 15) (coord : U32) (dir index : Nat) : Bool :=
  let d := (linkOf b k).dir.toNat
  dir / 2 == d / 2 && dir % 2 != d % 2 && index == k % 4 &&
    (!b.torus.valid || (neighbour b d == some peer.toNat && tlook b.fab.route peer.toNat == some coord))

/-- LINK_IDENT (R312, R313): the other end's module number, coordinates, direction and index. -/
def linkIdent (k : Nat) (peer : BitVec 15) (coord : U32) (dir index : Nat) (b : Block) : Block :=
  let l := linkOf b k
  if l.st = 5 then
    -- keys and unacknowledged flits are those of one other end
    let same := l.peer == peer && l.peerIdx.toNat == index
    let b1 := setLink b k { l with
      peer := peer, peerIdx := BitVec.ofNat 2 index, keyed := l.keyed && same, replay := if same then l.replay else [] }
    if identOk b k peer coord dir index then
      if l.keyed && same && !l.rekey then linkToUp b1 k else setLinkSt b1 k 6
    else setLinkSt b1 k 10
  else b

/-! ### KEY (R465) -/

/-- Both directions' keys with their salts: "LINK UP" is the lower end's transmit direction. -/
def linkKeys (z : List Byte) : List Byte × List Byte :=
  let f (x : String) : List Byte := kdf z (ascii x) ++ (kdf z (ascii x ++ ascii " SALT")).take 4
  (f "LINK UP", f "LINK DN")

/-- The signatures an end makes in KEY: the lower end its report; the higher end its report and the one over ENCAP. -/
def keySign (b : Block) (lower : Bool) (bind : List Byte) : Option Block :=
  match report b bind 0 with
  | none => none
  | some r => if lower then some r.2 else (sign r.2 bind).map Prod.snd

/-- A link under new keys: both sequence numbers begin at 0; flits not acknowledged under the old keys are the first of the
new sequence (R310); after a training from DETECT both ends begin with every credit. [DEDUCED, log 54] -/
def rekeyed (l : Link) (tx rx : List Byte) : Link :=
  { l with
    keyed := true, rekey := false, txKey := tx, rxKey := rx, txNext := l.replay.length, rxNext := 0, replays := 0
    nak := false, replay := l.replay.mapIdx fun j e => { e with seq := j, cw := controlAgain e.cw }
    credits := if l.keyed then l.credits else [256, 256, 256, 256], owed := if l.keyed then l.owed else [0, 0, 0, 0] }

/-- LINK_KEY: agreement and attestation between the ends. [DEDUCED, log 54; DEDUCED, log 65] -/
def linkKey (k : Nat) (p : KeyPeer) (b : Block) : Block :=
  let l := linkOf b k
  if l.st = 6 then
    let lower := decide (b.geo.own.toNat < l.peer.toNat)
    let bind := Config.shake p.offer
    let d := draw b 64
    let good := canKey b && certOk b p.cert && peerReportOk b p.cert p.report bind p.readmit &&
      (!lower || Config.xmssVerify (certKey p.cert) bind p.sig)
    match (if good then keySign d.2 lower bind else none) with
    | none => failLink (agreeFailed b) k
    | some b1 =>
      let ss := if lower then Config.mlkemDecap d.1 p.share else (Config.mlkemEncap p.share d.1).2
      let ks := linkKeys (sessionSecret ss p.transcript)
      linkToUp ({ setLink b1 k
          (rekeyed (linkOf b1 k) (if lower then ks.1 else ks.2) (if lower then ks.2 else ks.1)) with
        house := { b1.house with rekeyed := b1.house.rekeyed ||| (1#32 <<< k) } }) k
  else b

/-- SEQUENCE_LIMIT_REKEY (R305): the direction's sequence number nears 2^47, and the link retrains through KEY.
[DEDUCED, log 54] -/
def rekeyLink (k : Nat) (b : Block) : Block :=
  if linkUsable b k then retrain (setLink b k { linkOf b k with rekey := true }) k else b

/-! ### Link-control flits (R308) -/

/-- The payload of a link-control flit the link sends now. -/
def controlPayload (l : Link) (flags : Nat) : List Byte :=
  leBytes 8 ((l.rxNext + 2 ^ 64 - 1) % 2 ^ 64) ++ leBytes 8 (if l.nak then l.rxNext else 0) ++
  leBytes 1 (l.nak.toNat + flags) ++ leBytes 7 0 ++ (List.range 4).flatMap fun v => leBytes 2 (l.owed.getD v 0)

/-- Send a link-control flit: it uses no credit and returns every credit owed. -/
def sendControl (b : Block) (k flags : Nat) : Block :=
  let l := linkOf b k
  if linkUsable b k && decide (l.replay.length < 512) then
    let f : Flit := { code := 0, count := 0, dst := l.peer, src := b.geo.own, tag := 0, epoch := 0, cls := 0, offset := 0,
                      data := controlPayload l flags }
    transmit (setLink b k { l with owed := [0, 0, 0, 0] }) k none (flitBytes f) 32
  else b

/-- LINK_CONTROL_INTERVAL. -/
def linkControlInterval (k : Nat) (b : Block) : Block := sendControl b k 0

/-- At least 32 credits or acknowledgements wait, and no other flit has carried them (R308). -/
def controlDue (l : Link) : Bool := decide (32 ≤ sumOf l.owed) || decide (32 ≤ l.ackOwed)

/-- Send what waits, and a link-control flit where R308 asks for one. -/
def settleLink (b : Block) (k : Nat) : Block :=
  let b1 := drainLink b k
  if controlDue (linkOf b1 k) then sendControl b1 k 0 else b1

/-- The other end has accepted the first n flits of the sequence. -/
def ackFirst (l : Link) (n : Nat) : Link :=
  let rest := l.replay.filter fun e => decide (n ≤ e.seq)
  { l with replay := rest, replays := if rest.length < l.replay.length then 0 else l.replays }

/-- What an accepted link-control flit does: acknowledgement (the number before 0 when nothing was accepted), credits, NAK, narrow request and grant, widen request. -/
def applyControl (b : Block) (k ack : Nat) (nak : Option Nat) (flags : Nat) (credits : List Nat) : Block :=
  let l := ackFirst (linkOf b k) ((ack + 1) % 2 ^ 64)
  let b1 := setLink b k { l with credits := (List.range 4).map fun v => l.credits.getD v 0 + credits.getD v 0 }
  let b2 := match nak with
    | some n => replayFrom b1 k n
    | none => b1
  let z := linkOf b2 k
  let b3 := if flags.testBit 1 && z.st == 7 && z.narrowEn && z.queue.isEmpty then
      let y := sendControl b2 k 4
      setLinkSt (setLink y k { linkOf y k with narrow := satAdd (linkOf y k).narrow 1 }) k 8
    else b2
  let b4 := if flags.testBit 2 && (linkOf b3 k).st == 7 && (linkOf b3 k).queue.isEmpty then
      setLinkSt (setLink b3 k { linkOf b3 k with narrow := satAdd (linkOf b3 k).narrow 1 }) k 8
    else b3
  let b5 := if flags.testBit 3 && (linkOf b4 k).st == 8 then setLinkSt b4 k 7 else b4
  settleLink b5 k

/-- LINK_CONTROL_FLIT: the next flit in sequence is accepted and is a link-control flit. -/
def linkControlFlit (k ack : Nat) (nak : Option Nat) (flags : Nat) (credits : List Nat) (b : Block) : Block :=
  if linkUsable b k then
    let l := linkOf b k
    let n := bump16 l.rx l.rxLow
    applyControl (setLink b k { l with
      rxNext := l.rxNext + 1, nak := false, ackOwed := l.ackOwed + 1, rx := n.1, rxLow := n.2 }) k ack nak flags credits
  else b

/-- LINK_NARROW (R316): after the idle time an end with nothing to send asks to narrow. -/
def linkNarrow (k : Nat) (b : Block) : Block :=
  let l := linkOf b k
  if l.st = 7 ∧ l.narrowEn = true ∧ l.queue.isEmpty = true then sendControl b k 2 else b

/-- LINK_WIDEN (R316): a flit queued for a narrowed link widens it. -/
def linkWiden (k : Nat) (b : Block) : Block :=
  let l := linkOf b k
  if l.st = 8 ∧ l.queue.isEmpty = false then drainLink (setLinkSt (sendControl b k 8) k 7) k else b

/-! ### House traffic at the target (R353) -/

def houseDrop (b : Block) : Block := { b with house := { b.house with dropped := satAdd b.house.dropped 1 } }

/-- A house PUT: refused FENCED, refused PROT and counted, or stored in the sender's slot. A module of another house
passes as keeper by the role it holds, or by a keeper's message under a term it took by succession. [DEDUCED, log 61] -/
def houseTake (b : Block) (r : Request) : Block :=
  let m := r.src.toNat
  let slot := match r.op with
    | .put d => if d.length = 64 ∧ faLocal r.addr = slotAddr m then some d else none
    | _ => none
  let claims := match r.op with
    | .put d => (readHm d).term != 0 && decide (6 ≤ (readHm d).kind) && decide ((readHm d).kind ≤ 9)
    | _ => false
  let known := (houseOf b m).isSome && (houseOf b m == some (houseIndex b).1 || (keepers b).contains m || claims)
  if b.fab.fenced && m != b.geo.keeper.toNat then respond { b with fab := countRefused b.fab 7 } r 7 []
  else match (if known then slot else none) with
    | none => respond (houseDrop { b with fab := countRefused b.fab 4 }) r 4 []
    | some d =>
      let b1 := if (readHm d).kind = 0 ∨ 13 < (readHm d).kind then (houseDrop b, true) else putSlot b m d
      if b1.2 then respond b1.1 r 0 [] else respond { b1.1 with fab := countRefused b1.1.fab 6 } r 6 []

/-- A request reaches this module as target: house traffic by its job number 0, or a request of a job.
[DEDUCED, log 46] -/
def requestTake (b : Block) (r : Request) : Block := if jobOf r.epoch = 0 then houseTake b r else targetTake b r

/-- REQUEST_ARRIVAL (R293). [DEDUCED, log 46] -/
def requestArrival (r : Request) (b : Block) : Block :=
  if arrives b r || (jobOf r.epoch == 0 && faModule r.addr == b.geo.own) then settleAll (requestTake b r) else b

/-- RESPONSE_ARRIVAL (R295). -/
def responseArrival (r : Response) (b : Block) : Block :=
  if r.dst = b.geo.own then settleAll (responseArrive b r) else b

/-- REQUEST_TIMEOUT (R297): the request of a tag is still open at the limit. -/
def requestTimeout (t : Nat) (b : Block) : Block :=
  if (tlook b.fab.reqs t).isSome then settleAll (endReq b t 0x10 []) else b

/-- TAG_QUARANTINE_END (R297). -/
def quarantineEnd (t : Nat) (b : Block) : Block :=
  match tlook b.fab.quarantine t with
  | none => b
  | some _ => settleAll (pumpAll { b with fab := { b.fab with quarantine := tdel b.fab.quarantine t } })

/-! ### Arrived flits -/

/-- The pieces of an arrived run of requests (R303): tag, address, operation. -/
def piecesOf (own : BitVec 15) (f : Flit) (len : Nat) : List Request :=
  let base := BitVec.ofNat 64 (own.toNat * 2 ^ 49 + addrOfClass f.cls f.offset % 2 ^ 49)
  let data := f.data.take len
  let head (n : Nat) : Nat := leNat (f.data.take n)
  let mk (j : Nat) (a : U64) (op : ReqOp) : Request :=
    { src := f.src, tag := f.tag + BitVec.ofNat 16 j, epoch := f.epoch, addr := a, op := op }
  let cutRun (n : Nat) (g : Nat → Nat → ReqOp) : List Request :=
    let cs := cuts base n
    (List.range cs.length).map fun j =>
      let p := cs.getD j (base, 0)
      mk j p.1 (g (p.1 - base).toNat p.2)
  if f.code = 1 then cutRun len fun o n => .put ((data.drop o).take n)
  else if f.code = 2 then cutRun (head 4) fun _ n => .get n
  else if f.code = 3 then [mk 0 base (.signal (BitVec.ofNat 64 (head 8)))]
  else if f.code = 9 then
    let fmt := (f.data.getD 0 0).toNat
    let k : Int := ((f.data.getD 1 0).toNat : Int) - 127
    let src := f.data.drop 16
    cutRun (64 * leNat ((f.data.drop 2).take 2)) fun o n =>
      .radd 5 fmt k (n / 64) (raddSlice (raddSrcBits 5 fmt) (o / 64) (n / 64) src)
  else
    let kind := if f.code = 10 then 6 else f.code - 4
    cutRun len fun o n => .radd kind 0 0 (n / raddDest kind) ((data.drop o).take n)

/-- The responses of an arrived run (R295, R303). -/
def responsesOf (f : Flit) (len : Nat) : List Response :=
  (List.range (if f.code = 13 then 1 else f.count + 1)).map fun j =>
    { dst := f.dst, src := f.src, tag := f.tag + BitVec.ofNat 16 j, epoch := f.epoch,
      status := if f.code = 14 then f.offset % 256 else 0, data := if f.code = 13 then f.data.take len else [] }

/-- A flit in transit (R318, R319): it waits for the link its route takes; without a route each of its requests is refused
with NOROUTE, and each of its responses discarded. [DEDUCED, log 56] -/
def transit (b : Block) (k vc : Nat) (f : Flit) (len : Nat) : Block :=
  match launch b { f with data := f.data.take len } (some (k, vc)) with
  | some x => x
  | none =>
    let n := if isResponse f then (responsesOf f len).length else (piecesOf f.dst f len).length
    let b1 := leaveBuffer { b with fab := { b.fab with noroute := satAdd b.fab.noroute n } } ⟨vc, f, some (k, vc)⟩
    if isResponse f then b1 else (piecesOf f.dst f len).foldl (fun z r => respond z r 8 []) b1

/-- A flit that ends in this module leaves the receive buffer as it is taken. -/
def took (b : Block) (k vc : Nat) (f : Flit) : Block := leaveBuffer b ⟨vc, f, some (k, vc)⟩

/-- An accepted flit of a link: link control, a request or response of this module, or transit. -/
def deliver (b : Block) (k vc : Nat) (f : Flit) (len : Nat) : Block :=
  if f.code = 0 then
    let n (o w : Nat) : Nat := leNat ((f.data.drop o).take w)
    applyControl b k (n 0 8) (if (n 16 1).testBit 0 then some (n 8 8) else none) (n 16 1)
      ((List.range 4).map fun v => n (24 + 2 * v) 2)
  else if f.code = 11 ∨ f.code = 15 then
    let b1 := took b k vc f
    let l := linkOf b1 k
    setLink b1 k { l with badflit := satAdd l.badflit 1 }
  else if f.dst = b.geo.own then
    if isResponse f then (responsesOf f len).foldl responseArrive (took b k vc f)
    else (piecesOf b.geo.own f len).foldl requestTake (took b k vc f)
  else transit b k vc f len

/-- The 288 content bytes of eighteen code words, with the corrections made; none when one is uncorrectable (R267). -/
def decodeWords (ws : List (BitVec 144)) : Option (List Byte × Nat) :=
  ws.foldr (fun w x =>
    match x, eccDecode w with
    | none, _ => none
    | _, .bad => none
    | some (bs, n), .clean => some (leBytes 16 (w.toNat % 2 ^ 128) ++ bs, n)
    | some (bs, n), .single i e =>
      some (leBytes 16 ((w.toNat ^^^ (e.toNat * 2 ^ (4 * i))) % 2 ^ 128) ++ bs, n + 1)) (some ([], 0))

/-- How many flits of the sequence the other end has accepted, from the low 12 bits of the last one's number: the most
that fits what was sent; 0xFFF of an end that has accepted none gives 0 (R304, R309). -/
def acceptedOf (l : Link) (low : Nat) : Nat := l.txNext - (l.txNext + 4096 - (low + 1) % 4096) % 4096

/-- A flit was not received whole: it and every later one are discarded until it comes again (R309). -/
def startNak (b : Block) (k : Nat) : Block := setLink b k { linkOf b k with nak := true }

/-- FLIT_RECEIVE (R306, R309): a flit arrives on the lanes of a link. -/
def flitReceive (k : Nat) (lanes : List (List (BitVec 2))) (b : Block) : Block :=
  if !linkUsable b k then b
  else
    let l := linkOf b k
    match decodeWords (fromWire (l.st == 8) l.spared lanes) with
    | none => if l.nak then b else startNak (setLink b k { l with uncorr := satAdd l.uncorr 1 }) k
    | some (x, corr) =>
      let cw := (x.drop 284).take 4
      let c := leNat cw
      match Config.gcmOpenShort (l.rxKey.take 32) (l.rxKey.drop 32 ++ leBytes 8 l.rxNext) cw (x.take 284) with
      | none => if l.nak then b else startNak (setLink b k { l with authfail := satAdd l.authfail 1 }) k
      | some content =>
        let f := readFlit content
        let n := bump16 l.rx l.rxLow
        let vc := c / 2 ^ 8 % 4
        let crvc := c / 2 ^ 14 % 4
        let l1 := ackFirst l (acceptedOf l (c / 2 ^ 16 % 4096))
        let l2 := { l1 with
          corr := satAdd l1.corr corr, rxNext := l.rxNext + 1, nak := false, ackOwed := l1.ackOwed + 1,
          rx := n.1, rxLow := n.2, credits := addAt l1.credits crvc (c / 2 ^ 10 % 16) }
        settleAll (settleLink (deliver (setLink b k l2) k vc f (c % 256 + 1)) k)

/-- FLIT_SWITCH_DISCARD (R311): a flit waiting for link k, by its place in the queue, has waited too long. -/
def switchDiscard (k j : Nat) (b : Block) : Block :=
  let l := linkOf b k
  match l.queue[j]? with
  | some e =>
    leaveBuffer (setLink b k { l with queue := l.queue.eraseIdx j, discard := satAdd l.discard 1 }) e
  | none => b

/-! ### Phase remap (R348 to R350) -/

/-- A phase: for each logical axis, the physical axis that serves it and whether it runs in reverse. -/
def phaseAxis (ph : List Nat) (a : Nat) : Nat × Bool := (ph.getD a a % 4, (ph.getD a a).testBit 7)

/-- Logical coordinates of physical ones under a phase. [DEDUCED, log 59] -/
def logicalOf (ph : List Nat) (physE phys : List Nat) : List Nat :=
  (List.range 4).map fun a =>
    let p := phaseAxis ph a
    let e := physE.getD p.1 1
    let c := phys.getD p.1 0
    if p.2 then (e - c) % e else c

def logicalExt (ph : List Nat) (physE : List Nat) : List Nat :=
  (List.range 4).map fun a => physE.getD (phaseAxis ph a).1 1

/-- Physical coordinates of logical ones under a phase. [DEDUCED, log 59] -/
def physicalOf (ph : List Nat) (physE lc : List Nat) : List Nat :=
  (List.range 4).map fun p =>
    match (List.range 4).find? fun a => (phaseAxis ph a).1 == p with
    | some a =>
      let e := physE.getD p 1
      let c := lc.getD a 0
      if (phaseAxis ph a).2 then (e - c) % e else c
    | none => 0

def packCoord (l : List Nat) : U32 := BitVec.ofNat 32 (sumOf ((List.range 4).map fun a => l.getD a 0 * 256 ^ a))

/-- Logical coordinates of a logical index under the table (R328). -/
def indexCoord (ext : List Nat) (n : Nat) : List Nat :=
  let e0 := ext.getD 0 1
  let e1 := ext.getD 1 1
  let e2 := ext.getD 2 1
  [n % e0, n / e0 % e1, n / (e0 * e1) % e2, n / (e0 * e1 * e2)]

/-- The direction a link serves under a phase: its physical axis is k ÷ 8 and its sign (k ÷ 4) mod 2. -/
def phaseDir (ph : List Nat) (k : Nat) : Nat :=
  match (List.range 4).find? fun a => (phaseAxis ph a).1 == k / 8 with
  | some a => 2 * a + (if (phaseAxis ph a).2 then 1 - k / 4 % 2 else k / 4 % 2)
  | none => k / 4

/-- Route table, geometry and link directions of a phase (R330, R349). [DEDUCED, log 59] -/
def applyPhase (b : Block) (v : Nat) : Block :=
  let t := b.torus
  let ph := t.phases.getD v [0, 1, 2, 3]
  let ph0 := t.phases.getD 0 [0, 1, 2, 3]
  let coordNow (n : Nat) : U32 := packCoord (logicalOf ph t.physExt (physicalOf ph0 t.physExt (indexCoord t.ext n)))
  let route := (List.range t.places.length).foldl (fun z n =>
    match t.places.getD n none with
    | some m => tins z m (coordNow n)
    | none => z) ([] : Tbl U32)
  let b1 := (List.range 32).foldl (fun z k => setLink z k { linkOf z k with dir := BitVec.ofNat 3 (phaseDir ph k) }) b
  let dl := (List.range 8).map fun d =>
    (List.range 32).foldl (fun (m : U32) k => if phaseDir ph k = d then m ||| (1#32 <<< k) else m) 0
  let me := coordNow ((placeOf b b.geo.own.toNat).getD 0)
  let b2 := { b1 with fab := { b1.fab with route := route } }
  geoChange b2 fun g => { g with extent := packCoord (logicalExt ph t.physExt), coord := me, dirLinks := dl }

/-- The trigger counter's value, as the job's context holds it. -/
def remapValue (b : Block) : Nat := rdNat b (faLocal b.torus.rmCounter) 8

/-- No request is open, no flit waits, every replay buffer is acknowledged. -/
def switchQuiet (b : Block) : Bool :=
  b.fab.reqs.isEmpty && (List.range 32).all fun k => (linkOf b k).queue.isEmpty && (linkOf b k).replay.isEmpty

/-- REMAP_REDRAW (R349): ports are held until the fabric is quiet; then the phase changes and the ports go on.
[DEDUCED, log 59] -/
def remapRedraw (b : Block) : Block :=
  let n := b.torus.phases.length
  if b.geo.remap = true ∧ n ≠ 0 ∧ remapValue b % n ≠ b.house.phase.toNat then
    if switchQuiet b then
      let v := remapValue b % n
      let b1 := applyPhase { b with house := { b.house with
        phase := BitVec.ofNat 3 v, remaps := satAdd b.house.remaps 1 } } v
      -- between PREPARE and COMMIT the ports stay held (R359)
      settleAll (pumpAll { b1 with fab := { b1.fab with portsHeld := b1.house.prepare.isSome } })
    else { b with fab := { b.fab with portsHeld := true } }
  else b

end Sys2Proof.Machine
end

