-- ==== Sys2Proof/Machine/MemCtl.lean ====
section
/-!
DEFINITION. What memory controllers, tiles and region clocks do on their own: patrol scrub (R105, R269, R286, R288),
self-refresh (R283), heat (R281, R282, R286, R477), the accumulation cache's flush (R287), region PLLs (R23, R478), and
the short-vector unit's power (R119).
-/
namespace Sys2Proof.Machine

/-! ### Patrol scrub -/

/-- The line of a stack that logical channel ch holds at channel-local line n (R270): the lines of an aligned 32 KiB, one
to each channel. -/
def chanAddr (k ch n : Nat) : Nat := k * 2 ^ 36 + (n * 128 + ch ^^^ (logicalChan (n * 128 * 256))) * 256

/-- Read and correct the lines at these local addresses; whether one met an uncorrectable word. -/
def scrubLines (b : Block) (l : List Nat) : Block × Bool :=
  l.foldl (fun z a => let r := scrubRead z.1 a 256; (r.1, z.2 || r.2.isSome)) (b, false)

/-- MC_SCRUB of a stack (R269): one line of each of its 128 channels. -/
def scrubStack (k : Nat) (b : Block) : Block :=
  let m := mcOf b k
  if b.geo.stackMask.getLsbD k && m.scrubEn && !m.selfRefresh then
    let r := scrubLines b ((List.range 128).map fun ch => chanAddr k ch m.scrubLine)
    let m1 := mcOf r.1 k
    let last := decide (m.scrubLine + 1 = 2 ^ 21)
    let b1 := setMc r.1 k { m1 with
      scrubLine := if last then 0 else m.scrubLine + 1, scrubPass := satAdd m1.scrubPass last.toNat }
    if r.2 then regionFault b1 k 1 else b1
  else b

/-- The tier line that the j-th present bus holds at bus-local line n (R284). -/
def busAddr (b : Block) (j n : Nat) : Nat := 0x10000000000 + (n * (presentBuses b).length + j) * 256

/-- MC_SCRUB of the capacity tier, under the settings of region 0 (R288): one line of each bus. [DEDUCED, log 57] -/
def scrubTier (b : Block) : Block :=
  let p := (presentBuses b).length
  if (mcOf b 0).scrubEn && p != 0 then
    let r := scrubLines b ((List.range p).map fun j => busAddr b j b.ct.scrubLine)
    let last := decide (b.ct.scrubLine + 1 = 2 ^ 28)
    let b1 := { r.1 with ct := { r.1.ct with
        scrubLine := if last then 0 else b.ct.scrubLine + 1, scrubPass := satAdd r.1.ct.scrubPass last.toNat } }
    if r.2 then chipFault b1 3 0 1 else b1
  else b

/-- MC_SCRUB: stacks 0 to 11; 12 names the capacity tier. [DEDUCED, log 57] -/
def mcScrub (k : Nat) (b : Block) : Block := if k < 12 then scrubStack k b else if k = 12 then scrubTier b else b

/-- TILE_SCRUB (R105): one 64-byte line of an idle bank. -/
def tileScrub (t : Nat) (b : Block) : Block :=
  let h := tileHw b t
  if tilePresent b t && clocked b (t / 96) && h.scrub && !gated b t && !h.faulted then
    let r := match b.running with
      | some c => scrubRead b (sramKey c t (64 * h.scrubPos)) 64
      | none => (b, none)
    let h1 := tileHw r.1 t
    let last := decide (h.scrubPos + 1 = 24576)
    let b1 := setTileHw r.1 t { h1 with
      scrubPos := if last then 0 else h.scrubPos + 1, scrubPass := satAdd h1.scrubPass last.toNat }
    if r.2.isSome then tileFault b1 t 2 (h.scrubPos % 32) (liveImg b1 (.tile (tile1152 t))).pc else b1
  else b

/-! ### Self-refresh -/

/-- The running context uses stack k: it owns a page of it. [DEDUCED, log 58] -/
def stackUsed (b : Block) (k : Nat) : Bool :=
  match b.running with
  | some c => (ctxOf b c).pages.any fun p => p * 0x200000 / 2 ^ 36 == k
  | none => false

/-- SELF_REFRESH_ENTRY (R283): unused and unaddressed for MC_SR.IDLE microseconds. [DEDUCED, log 58] -/
def selfRefreshEntry (k : Nat) (b : Block) : Block :=
  let m := mcOf b k
  if b.geo.stackMask.getLsbD k && !m.selfRefresh && !stackUsed b k then
    setMc b k { m with selfRefresh := true, srEntry := satAdd m.srEntry 1 }
  else b

/-- SELF_REFRESH_EXIT (R283): a request wakes the stack. -/
def selfRefreshExit (k : Nat) (b : Block) : Block :=
  let m := mcOf b k
  if m.selfRefresh then setMc b k { m with selfRefresh := false } else b

/-! ### Heat -/

/-- The level a band asks for (R282). -/
def bandLevel (m : Mc) (band : BitVec 3) : Nat :=
  if m.b25.toNat ≤ band.toNat ∨ 6 ≤ band.toNat then 3
  else if m.b50.toNat ≤ band.toNat then 2
  else if m.b75.toNat ≤ band.toNat then 1
  else 0

/-- The level rises at once to what the band asks for. -/
def raiseLevel (m : Mc) : Mc := { m with level := BitVec.ofNat 2 (max m.level.toNat (bandLevel m m.band)) }

/-- A thermal critical part: PWR_ALERT.THERM, CHIP_EVENT.THERMAL and event 0x08 (R450, R477). [DEDUCED, log 57] -/
def thermalCritical (b : Block) (part band : Nat) : Block :=
  sendEvent { b with pw := { b.pw with alert := b.pw.alert ||| 8 }, chipEvent := b.chipEvent ||| 2 }
    { kind := 8, ctx := 0xFF, body := [BitVec.ofNat 64 part, BitVec.ofNat 64 band] }

/-- A critical condition held by stack k, or by bus b as part 12 + b. -/
def setHot (b : Block) (part : Nat) (hot : Bool) : Block :=
  let bit := 1#28 <<< part
  { b with pw := { b.pw with hot := if hot then b.pw.hot ||| bit else b.pw.hot &&& ~~~ bit } }

/-- TEMPERATURE_BAND_REPORT (R281, R282): every 32 µs; time at level 1 or above counts in MC_THROTTLE.
[DEDUCED, log 47] -/
def bandReport (k : Nat) (band : BitVec 3) (b : Block) : Block :=
  let m := mcOf b k
  let m1 := raiseLevel { m with band := band, throttle := satAdd m.throttle (if m.level = 0 then 0 else 32) }
  let crit := decide (6 ≤ band.toNat)
  let b1 := setHot (setMc b k m1) k crit
  if crit then thermalCritical b1 k band.toNat else b1

/-- THROTTLE_RELAX (R282): the band has stayed below the threshold of the level in force for 1 ms. -/
def throttleRelax (k : Nat) (b : Block) : Block :=
  let m := mcOf b k
  if bandLevel m m.band < m.level.toNat then setMc b k { m with level := m.level - 1 } else b

/-- BUS_TEMPERATURE_INDICATION (R286, R477): a bus's devices report 105 °C, or no longer do; an event names bus b as
part 12 + b. -/
def busIndication (bus : Nat) (hot : Bool) (b : Block) : Block :=
  if b.geo.capBuses.getLsbD bus then
    let bit := 1#16 <<< bus
    let th := if hot then b.ct.throttled ||| bit else b.ct.throttled &&& ~~~ bit
    let b1 := setHot { b with ct := { b.ct with throttled := th } } (12 + bus) hot
    if hot then thermalCritical b1 (12 + bus) 6 else b1
  else b

/-! ### The accumulation cache -/

/-- Changed entries are written back: counted, and no longer changed (R278, R287). -/
def flushCache (b : Block) (k : Nat) (m : Mc) : Mc :=
  let n := (m.cache.filter fun e => e.2.dirty).length
  { m with
    cacheWb := satAdd m.cacheWb n
    cache := m.cache.map fun e =>
      if e.2.dirty then (e.1, { e.2 with dirty := false, stack := slotBytes b k e.2.slot }) else e }

def mcFlush (k : Nat) (b : Block) : Block :=
  let m := mcOf b k
  setMc ((m.cache.filter fun e => e.2.dirty).foldl (fun z e => writeBack z k e.2.slot) b) k (flushCache b k m)

/-- Entries of a context leave every cache without write-back: of a changed slot the stack's own content stays
(R278, R488). [DEDUCED, log 74] -/
def dropCache (b : Block) (c : Nat) : Block :=
  (List.range 12).foldl (fun z k =>
    let gone := ((mcOf z k).cache.filter fun e => e.2.ctx == c && e.2.dirty).map Prod.snd
    let z1 := gone.foldl (fun y e => wrList y (k * 2 ^ 36 + e.slot * 64) e.stack) z
    setMc z1 k { mcOf z1 k with cache := (mcOf z1 k).cache.filter fun e => e.2.ctx != c }) b

/-! ### Clocks and power of units -/

/-- REGION_PLL_LOCK (R23, R478). -/
def pllLock (k : Nat) (b : Block) : Block :=
  if tget b.pw.regionPll 0 k = 1 then
    settleAll { b with pw := { b.pw with regionPll := tput b.pw.regionPll 0 k 2 } }
  else b

/-- REGION_PLL_LOCK_LOSS (R478): the region's clocks stop, a region fault. Cause 4 of a region fault is the model's
number for it. -/
def pllLoss (k : Nat) (b : Block) : Block :=
  if tget b.pw.regionPll 0 k = 0 then b
  else regionFault { b with pw := { b.pw with regionPll := tput b.pw.regionPll 0 k 0 } } k 4

/-- SVU_POWER_DOWN (R119): the idle count reaches 4 096. -/
def svuPowerDown (t : Nat) (b : Block) : Block :=
  let h := tileHw b t
  if h.svuHold || h.svuDown then b else setTileHw b t { h with svuDown := true, svuIdle := 4096 }

end Sys2Proof.Machine
end

