-- ==== Sys2Proof/Machine/Contexts.lean ====
section
/-!
DEFINITION. The life of a context on the module: creation and adoption (R426, R466, R487), program load (R161, R533),
start, drain and resumption (R160, R162, R467, R533), reset (R488) and destruction (R427, R467).
-/
namespace Sys2Proof.Machine

/-! ### Pages -/

def pageBytes : Nat := 0x200000

/-- The page lies in memory that a context's address space may include (R271, R284, R289): present, and outside the
firmware reserve of its stack. [DEDUCED, log 70] -/
def pageUsable (b : Block) (p : Nat) : Bool :=
  memPresent b (p * pageBytes) &&
    match spaceOf (p * pageBytes) with
    | .stack _ => decide (p * pageBytes % 2 ^ 36 + 2 ^ 29 < 2 ^ 36)
    | .tier => true
    | _ => false

/-- Pages of the ranges of CTX_CREATE, base and length in bytes. -/
def rangePages (rs : List (Nat × Nat)) : List Nat :=
  rs.flatMap fun r => (List.range (r.2 / pageBytes)).map fun j => r.1 / pageBytes + j

def insertPage (p : Nat) : List Nat → List Nat
  | [] => [p]
  | q :: r => if p < q then p :: q :: r else if p = q then q :: r else q :: insertPage p r

def sortPages (l : List Nat) : List Nat := l.foldl (fun s p => insertPage p s) []

/-- Pages of the save area of R466. -/
def savePages : Nat := 3456

/-! ### Creation (R426) -/

/-- What CTX_CREATE asks for, after its clamps. -/
structure CtxReq where
  ctx : Nat
  replay : Bool
  confidential : Bool
  restore : Bool
  epoch : U32
  limit : Nat
  step : Nat
  seed : U64
  ranges : List (Nat × Nat)
deriving DecidableEq, Repr

/-- The retained pages of a context of that number (R487), when the ranges name the same. [DEDUCED, log 86] -/
def adopts (b : Block) (r : CtxReq) : Option (List Byte × BitVec 48) :=
  match tlook b.vy.retained r.ctx with
  | some e => if sortPages (rangePages r.ranges) = e.1 then some e.2 else none
  | none => none

/-- The reason code of R529 that refuses a creation; none where it is accepted. [DEDUCED, log 70] -/
def createRefusal (b : Block) (r : CtxReq) : Option Nat :=
  let ps := rangePages r.ranges
  if resident b r.ctx then some 0x11
  else if (adopts b r).isSome then none
  else if ps.any (fun p => (tlook b.pages p).isSome) || decide (ps.length ≠ (sortPages ps).length) then some 0x12
  else if ps.any (fun p => !pageUsable b p) then some 0x13
  else if r.ranges.any (fun x => x.1 % pageBytes != 0 || x.2 % pageBytes != 0) then some 0x14
  else if ps.length < savePages + 1 then some 0x10
  else if !canKey b then some 1
  else none

/-- Create the context: its pages but the save area are its own; its key is generated, or adopted with the step it
held. [DEDUCED, log 51] -/
def createCtx (b : Block) (session : Nat) (r : CtxReq) : Block :=
  let ps := sortPages (rangePages r.ranges)
  let own := ps.take (ps.length - savePages)
  let save := ps.drop (ps.length - savePages)
  let pages := save.foldl (fun t p => tins t p (saveOwner r.ctx)) (own.foldl (fun t p => tins t p r.ctx) b.pages)
  let d := draw b 64
  let k : List Byte × BitVec 48 × Block := match adopts b r with
    | some e => (e.1, e.2, b)
    | none => (d.1, 0, { d.2 with vy := { d.2.vy with ctxKeys := satAdd d.2.vy.ctxKeys 1 } })
  let x : Ctx := {
    replay := r.replay, confidential := r.confidential, restored := r.restore, pages := own, epoch := r.epoch,
    limitMs := r.limit, session := session, memKey := k.1,
    step := if r.restore then BitVec.ofNat 48 (r.step + 1) else k.2.1,
    seed := if r.restore then r.seed else 0, seedSet := r.restore && r.seed != 0 }
  let b1 := k.2.2
  geoTouch (setCtx { b1 with pages := pages } r.ctx x)

/-! ### What a context leaves behind -/

/-- Remove the bytes of memory that `p` names, by key. -/
def dropBytes (b : Block) (p : Nat → Bool) : Block :=
  { b with mem := b.mem.filter (fun e => !p e.1), memErr := b.memErr.filter fun e => !p (e.1 * 16) }

/-- A key of context c's tile SRAM. -/
def sramOf (c key : Nat) : Bool := decide (key / 2 ^ 49 = c + 1)

/-- The Derricks and Reckoners hold nothing of the context (R488). -/
def dropUnits (b : Block) (c : Nat) : Block :=
  (List.range 12).foldl (fun z k =>
    let d := drkOf z k
    let z1 := setDrk z k (drkFree d c)
    let r := rckOf z1 k
    setRck z1 k { r with
      digest := tdel r.digest c, skip := tdel r.skip c, loops := tdel r.loops c
      formed := r.formed.filter fun n => n / 256 != c }) b

/-- Event counters of the context in the memory controllers. -/
def dropNangen (b : Block) (c : Nat) : Block :=
  (List.range 12).foldl (fun z k => setMc z k { mcOf z k with nangen := tdel (mcOf z k).nangen c })
    { b with ct := { b.ct with nangen := tdel b.ct.nangen c } }

/-! ### Destruction (R427, R467) -/

/-- Halt, end the open requests, erase the key, free the pages: what they held is undefined to the next owner.
[DEDUCED, log 8] -/
def destroyCtx (b : Block) (c : Nat) : Block :=
  let b1 := abandonCtx (haltCtx b c .drained) c
  let mine := (b1.pages.filter fun e => e.2 == c || e.2 == saveOwner c).map Prod.fst
  let n := b1.freeCtr
  let b2 := dropBytes (dropCache b1 c) fun k => mine.contains (pageOf k) || sramOf c k
  let b3 := dropNangen (dropUnits b2 c) c
  let b4 := { b3 with
    ctxs := tdel b3.ctxs c, units := b3.units.filter fun e => e.1 / 65536 != c,
    pages := b3.pages.filter fun e => !mine.contains e.1,
    stale := mine.foldl (fun t p => tins t p n) b3.stale, freeCtr := n + 1,
    vy := { b3.vy with retained := tdel b3.vy.retained c } }
  -- requests held for its tile windows now find no context of their job
  let held := b4.fab.held.filter fun r => (ctxOfJob b4 (jobOf r.epoch)).isNone
  geoTouch (held.foldl targetTake { b4 with fab := { b4.fab with held := b4.fab.held.filter fun r => !held.contains r } })

/-! ### Context reset (R488) -/

/-- Every unit of the context at its initial image; event counters keep their counts (R449). [DEDUCED, log 74] -/
def clearUnits (b : Block) (c : Nat) : Block :=
  { b with units := b.units.map fun e =>
      if e.1 / 65536 = c then (e.1, { ({} : UnitImg) with cnt := e.2.cnt }) else e }

/-- What the step in progress had recorded is dropped with the registers. [DEDUCED, log 74] -/
def clearStep (x : Ctx) : Ctx :=
  { x with
    seedPend := [], lgf := [], stepClamps := 0, scaleDigest := 0, weightDigest := 0, shardDigest := [], norm := 0,
    clip := 0x3FF0000000000000, normSkip := false, record := [], phase := .none, ring := [] }

/-- [DEDUCED, log 74] -/
def resetCtx (b : Block) (c : Nat) : Block :=
  match tlook b.ctxs c with
  | none => b
  | some _ =>
    let b1 := abandonCtx (haltCtx b c .reset) c
    let b2 := dropUnits (dropCache (dropBytes (clearUnits b1 c) (sramOf c)) c) c
    setCtx b2 c (clearStep (ctxOf b2 c))

/-! ### Program load (R533) -/

/-- Every page of [a, a + n) belongs to the context, in stack memory. [DEDUCED, log 72] -/
def imageInside (b : Block) (c a n : Nat) : Bool :=
  decide (a + n ≤ 0xC000000000) &&
    (List.range (pageOf (a + n - 1) + 1 - pageOf a)).all fun p => owns b c ((pageOf a + p) * pageBytes)

/-- The reason that refuses an image, in the order of R529. [DEDUCED, log 72] -/
def loadRefusal (b : Block) (c a : Nat) (digest : List Byte) : Option Nat :=
  if !imageInside b c a 64 || a % 4096 != 0 then some 0x19
  else if rdNat b a 4 ≠ 0x55584147 ∨ rdNat b (a + 4) 2 ≠ 1 then some 0x18
  else
    let n := rdNat b (a + 8) 8
    if 2 ^ 26 < n ∨ imageInside b c a (max n 64) = false then some 0x19
    else if [0, 1, 2, 3].any fun j =>
        let e := rdNat b (a + 16 + 8 * j) 8
        e % 8 != 0 || decide (n ≤ e) then some 0x1A
    else if Config.shake (rdKeys b a n) ≠ digest then some 0x1B
    else if (ctxOf b c).confidential ∧ (ctxOf b c).boundDigest ≠ some digest then some 0x1C
    else none

/-- A passed load sets CTX.IMAGE and the entries. -/
def loadImage (b : Block) (c a : Nat) : Block :=
  setCtx b c { ctxOf b c with
    image := ownAddr b a, imgSize := rdNat b (a + 8) 8, loaded := true,
    entries := [0, 1, 2, 3].map fun j => rdNat b (a + 16 + 8 * j) 8 }

/-! ### Running -/

/-- A context becomes runnable: region PLLs start (R23, R475), a replay looks for its reference record (R406). -/
def makeRunnable (b : Block) (c : Nat) : Block :=
  beginStep (startPlls (setCtx b c { ctxOf b c with st := .runnable })) c

/-- CTX_RUN of R533: none where the state refuses it. [DESIGN CHOICE, log 3] -/
def runCtx (b : Block) (c : Nat) : Option Block :=
  let x := ctxOf b c
  let ready := x.loaded && (!x.confidential || (x.ownerKey.isSome && x.boundDigest.isSome))
  match x.st with
  | .created => if ready then some (makeRunnable (startUnits b c) c) else none
  | .reset => if ready then some (makeRunnable (startUnits b c) c) else none
  | .runnable => some b
  | .drained => some (makeRunnable b c)
  | .haltedStep => none
  | .haltedFault => none

/-- After a failed pair check STEPEND has not retired (R413); a context that resumes goes on behind it (R533): the step
ends and STEPEND retires now. [DEDUCED, log 53] -/
def endFailedStep (b : Block) (c : Nat) : Block :=
  if (ctxOf b c).phase = .pairFailed then finishStep b c else b

/-- RESUME of R533: only a context halted at a step end. -/
def resumeCtx (b : Block) (c : Nat) : Option Block :=
  if (ctxOf b c).st = .haltedStep then some (makeRunnable (endFailedStep b c) c) else none

/-- CTX_DRAIN: only a runnable context has anything to drain; the running one ends its issued instructions first (R160).
[DEDUCED, log 73] -/
def drainCtx (b : Block) (c : Nat) : Option Block :=
  if (ctxOf b c).st = .runnable then
    some (if b.running = some c then { b with draining := true } else haltCtx b c .drained)
  else none

/-- STREAM_ATTACH: the context's events and streams move to a session, which gets every unit the ring still holds. -/
def attachCtx (b : Block) (c session : Nat) : Block := restream (setCtx b c { ctxOf b c with session := session }) c

end Sys2Proof.Machine
end

