-- ==== Sys2Proof/Machine/Torus.lean ====
section
/-!
DEFINITION. The torus table: its layout and clamps (R328, R329, R348), its refusals (R529), and what an accepted table sets
(R312, R330, R351, R355, R482).
-/
namespace Sys2Proof.Machine

/-- A table as read after its clamps, and the clamps. -/
structure TableRead where
  epoch : U32
  ext : List Nat
  cuts : List Nat
  size : Nat
  remap : Bool
  places : List (Option Nat)
  /-- the module numbers of all entries, vacant ones too -/
  nums : List Nat
  keepers : List Nat
  phases : List (List Nat)
  counter : U64
  len : Nat
  clamps : Nat
deriving DecidableEq, Repr

/-- A value forced into a range, and the clamp it costs. -/
def into (lo hi n : Nat) : Nat × Nat := if n < lo then (lo, 1) else if hi < n then (hi, 1) else (n, 0)

/-- The extents after R329: each from 1 to 32, their product at most 32 768. -/
def tableExtents (raw : List Nat) : List Nat × Nat :=
  let e := raw.map (into 1 32)
  let v := e.map Prod.fst
  let p := v.getD 0 1 * v.getD 1 1 * v.getD 2 1
  let c := sumOf (e.map Prod.snd)
  if 32768 < p * v.getD 3 1 then (v.set 3 (32768 / p), c + 1) else (v, c)

/-- The keeper byte of house h: at or above the member count it names the last member. [DEDUCED, log 79] -/
def keeperByte (n size h k : Nat) : Nat × Nat :=
  let count := min size (n - h * size)
  if count ≤ k then (count - 1, 1) else (k, 0)

/-- Read a table by the layout that its clamped extents and house size fix. -/
def readTable (p : List Byte) : TableRead :=
  let f (o w : Nat) : Nat := leNat ((p.drop o).take w)
  let e := tableExtents ((List.range 4).map fun a => f (8 + a) 1)
  let n := e.1.foldl (· * ·) 1
  let h := into 1 64 (f 0x10 1)
  let houses := (n + h.1 - 1) / h.1
  let remap := (f 0x11 1).testBit 0
  let ko := 0x40 + 2 * n
  let ks := (List.range houses).map fun j => keeperByte n h.1 j (f (ko + j) 1)
  let ro := ko + houses
  let ph := into 1 8 (f ro 1)
  { epoch := BitVec.ofNat 32 (f 4 4), ext := e.1, cuts := (List.range 4).map (fun a => f (12 + a) 1), size := h.1,
    remap := remap,
    places := (List.range n).map (fun j =>
      let x := f (0x40 + 2 * j) 2
      if x.testBit 15 then none else some (x % 2 ^ 15)),
    nums := (List.range n).map (fun j => f (0x40 + 2 * j) 2 % 2 ^ 15),
    keepers := ks.map Prod.fst,
    phases := if remap then (List.range ph.1).map fun j => (List.range 4).map fun a => f (ro + 0x10 + 4 * j + a) 1 else [],
    counter := BitVec.ofNat 64 (f (ro + 8) 8), len := ro + if remap then 48 else 0,
    clamps := e.2 + h.2 + sumOf (ks.map Prod.snd) + if remap then ph.2 else 0 }

/-- The four values are 0 to 3 in some order. -/
def permutation4 (l : List Nat) : Bool := (List.range 4).all l.contains

/-- A module number stands twice. -/
def repeats : List Nat → Bool
  | [] => false
  | x :: r => r.contains x || repeats r

/-- A context of the job is not halted, or one of its requests is open. -/
def jobBusy (b : Block) (job : Nat) : Bool :=
  (b.ctxs.any fun e => jobOf e.2.epoch == job && e.2.st == .runnable) ||
    b.fab.reqs.any fun e => jobOf e.2.req.epoch == job

/-- The reason code that refuses a table. [DEDUCED, log 79] -/
def tableRefusal (b : Block) (len : Nat) (t : TableRead) : Option Nat :=
  if len ≠ t.len then some 0x35
  else if !permutation4 t.cuts then some 0x30
  else if repeats (t.places.filterMap id) then some 0x31
  else if !t.nums.contains b.geo.own.toNat then some 0x32
  else if jobBusy b (jobOf t.epoch) then some 0x33
  else if t.phases.any (fun ph => !permutation4 (ph.map (· % 4))) then some 0x34
  else none

/-- Physical extents, of which the first phase makes the table's own. -/
def physOf (t : TableRead) : List Nat :=
  (List.range 4).map fun p =>
    match (List.range 4).find? fun a => (phaseAxis (t.phases.getD 0 [0, 1, 2, 3]) a).1 == p with
    | some a => t.ext.getD a 1
    | none => 1

/-- A member that a module knows dead: declared dead here, or, to a member of the house, absent from the mask of the last
BEAT it accepted (R355). [DEDUCED, log 61] -/
def knownDead (b : Block) (m : Nat) : Bool :=
  b.house.gone.contains m ||
    (!b.house.isKeeper && b.house.live != 0 && houseOf b m == some (houseIndex b).1 &&
      !b.house.live.getLsbD ((placeOf b m).getD 0 % b.torus.houseSize))

/-- The keeper a table gives the own house: the defined one where it is live; else the keeper so far, where the table
names it and it is live; else the first live member (R355). [DEDUCED, log 79] -/
def tableKeeper (b : Block) (h : Nat) : Nat :=
  let live := (houseMembers b h).map Prod.snd
  match (definedKeeper b h).bind fun m => if live.contains m then some m else none with
  | some m => m
  | none => if live.contains b.geo.keeper.toNat then b.geo.keeper.toNat else live.headD b.geo.own.toNat

/-- House roles after a table: a keeper that the table restores begins at term 0; one that took the role by succession, its
defined keeper not being live, goes on under its term. -/
def tableRoles (b : Block) : Block :=
  let h := (houseIndex b).1
  let k := tableKeeper b h
  let mine := decide (k = b.geo.own.toNat)
  let o := b.house
  { geoChange b (fun g => { g with keeper := BitVec.ofNat 15 k }) with
    house := { o with
      isKeeper := mine, isFirst := mine && h == 0, term := if definedKeeper b h = some k then 0 else o.term, seen := []
      live := 0, dead := [], raise := none, prepare := none, prepared := false, probes := [], joins := []
      admitted := o.admitted || mine } }

/-- A link begins again at DETECT. -/
def redetect (b : Block) (k : Nat) : Block :=
  setLinkSt (setLink b k { linkOf b k with retrain := satAdd (linkOf b k).retrain 1 }) k 1

/-- Links whose peer no longer matches the table retrain (R330): one that found a wrong peer before, or failed against a
peer that is not the table's, from DETECT (R361). [DEDUCED, log 60] -/
def retrainStrays (b : Block) : Block :=
  (List.range 32).foldl (fun z k =>
    let l := linkOf z k
    let stray := neighbour z l.dir.toNat != some l.peer.toNat
    if 6 ≤ l.st.toNat ∧ l.st.toNat ≤ 8 ∧ stray = true then retrain z k
    else if l.disable = false ∧ (l.st = 10 ∨ (l.st = 9 ∧ stray = true)) then redetect z k
    else z) b

/-- An accepted table takes effect (R330): torus, route table, geometry, roles, links. A module that had no place is a
spare until it is admitted. -/
def applyTable (b : Block) (t : TableRead) : Block :=
  let spare := !b.torus.valid
  let dead := ((b.torus.places.filterMap id).filter (knownDead b)).filter fun m => t.places.contains (some m)
  let b1 := { b with
    torus := {
      valid := true, ext := t.ext, cuts := t.cuts, houseSize := t.size, epoch := t.epoch, places := t.places,
      keepers := t.keepers, phases := t.phases, rmCounter := t.counter, physExt := physOf t }
    house := { b.house with phase := 0, gone := dead, admitted := b.house.admitted && !spare } }
  let b2 := geoChange b1 fun g => { g with houseSize := BitVec.ofNat 8 t.size, remap := t.remap }
  retrainStrays (tableRoles (applyPhase b2 0))

/-- The table as it is kept in the configuration area (R482). [DEDUCED, log 79] -/
def storeTable (b : Block) (p : List Byte) : Block :=
  { b with pw := { b.pw with stored := p, storedOwn := b.geo.own } }

end Sys2Proof.Machine
end

