-- ==== Sys2Proof/Machine/House.lean ====
section
/-!
DEFINITION. Houses: beats and silence (R354), succession (R355, R356), reports (R357), raising the generation (R358,
R359), relay, signature passage and admission (R360, R508).
-/
namespace Sys2Proof.Machine

def setHouse (b : Block) (f : House → House) : Block := { b with house := f b.house }
def ownNo (b : Block) : Nat := b.geo.own.toNat
def ownHouse (b : Block) : Nat := (houseIndex b).1

/-- Live members of the own house apart from this module. -/
def otherMembers (b : Block) : List Nat := ((houseMembers b (ownHouse b)).map Prod.snd).filter (· != ownNo b)

/-- Live keepers of the job apart from this module. -/
def otherKeepers (b : Block) : List Nat :=
  (keepers b).filter fun m => m != ownNo b && !b.house.gone.contains m

/-- The first keeper as this module knows it. -/
def firstKeeperOf (b : Block) : Nat := (keeperOf b 0).getD (ownNo b)

/-! ### Reports (R357) -/

/-- The module that the report record of a context suspects. -/
def reportBase (b : Block) (c : Nat) : Nat := controlPage (ctxOf b c)

/-- Firmware writes the answer: RPT.RESULT, RPT.EPOCH, then RPT.REPLY. -/
def writeAnswer (b : Block) (c result : Nat) : Block :=
  let a := reportBase b c
  addMem64 (wrNat (wrNat b (a + 0x20) 4 result) (a + 0x24) 4 b.torus.epoch.toNat) (a + 0x18) 1

/-- The reports of this module's contexts on a suspect are answered. -/
def answerOwn (b : Block) (suspect result : Nat) : Block :=
  let mine := b.house.pendingRpt.filter fun e => e.2 == suspect
  setHouse (mine.foldl (fun z e => writeAnswer z e.1 result) b) fun h =>
    { h with pendingRpt := h.pendingRpt.filter fun e => e.2 != suspect }

/-- Result 1 where the suspect has a place in the job, 2 where it has none. -/
def deadResult (b : Block) (suspect : Nat) : Nat := if (placeOf b suspect).isSome then 1 else 2

/-- The keeper answers a reporter: ECHO for a suspect that lives, DEAD for one that is dead or not in the job, with the
suspect in HM.SUBJECT; to itself it answers directly. [DEDUCED, log 63] -/
def answerReporter (b : Block) (reporter suspect : Nat) (alive : Bool) : Block :=
  let b1 := setHouse b fun h => { h with reports := satAdd h.reports 1 }
  if reporter = ownNo b then answerOwn b1 suspect (if alive then 0 else deadResult b suspect)
  else sendHouse b1 reporter { stateMsg b1 (if alive then 5 else 6) reporter with subject := BitVec.ofNat 15 suspect }

/-! ### Raising the generation (R358) -/

/-- Epoch with the next generation of the job. -/
def nextEpoch (e : U32) : U32 := BitVec.ofNat 32 (jobOf e * 2 ^ 20 + (genOf e + 1) % 2 ^ 20)

/-- A message that proposes an epoch. -/
def prepareMsg (b : Block) (e : U32) (dst : Nat) : HouseMsg := { stateMsg b 7 dst with epoch := e }

def sendPrepare (b : Block) (e : U32) (dsts : List Nat) : Block :=
  (dsts.filter (· != ownNo b)).foldl (fun z d => sendHouse z d (prepareMsg z e d)) b

/-- PREPARE takes effect here: the ports hold new requests. -/
def holdPorts (b : Block) (e : U32) : Block :=
  { setHouse b (fun h => { h with prepare := some e, prepared := false }) with fab := { b.fab with portsHeld := true } }

/-- Whom this keeper waits for: its members, and as first keeper the other keepers too. -/
def awaited (b : Block) : List Nat := otherMembers b ++ if b.house.isFirst then otherKeepers b else []

/-- The first keeper begins the next raise. -/
def startRaise (b : Block) : Block :=
  let e := nextEpoch b.torus.epoch
  let b1 := holdPorts (setHouse b fun h => { h with raise := some (e, []), dead := [] }) e
  sendPrepare b1 e (awaited b1)

/-- The job's contexts take a new epoch, requests of the old one end ABANDONED (R322), the ports go on. -/
def adoptEpoch (b : Block) (e : U32) : Block :=
  let mine := (b.ctxs.filter fun x => jobOf x.2.epoch == jobOf e).map Prod.fst
  let b1 := abandon b fun q => mine.contains q.ctx
  let b2 := mine.foldl (fun z c => setCtx z c { ctxOf z c with epoch := e }) b1
  let b3 := { b2 with
    torus := { b2.torus with epoch := e }, fab := { b2.fab with portsHeld := false }
    house := { b2.house with raise := none, prepare := none, prepared := false } }
  settleAll (pumpAll b3)

/-- COMMIT of the first keeper; members that died meanwhile begin the next raise. [DEDUCED, log 64] -/
def commitRaise (b : Block) (e : U32) : Block :=
  let dsts := awaited b
  let b1 := adoptEpoch b e
  let b2 := sendState (setHouse b1 fun h => { h with raises := satAdd h.raises 1 }) 9 dsts
  if b2.house.dead.isEmpty then b2 else startRaise b2

/-- The module's own requests have ended: a member answers READY; a keeper does once its members have; the first keeper
commits once all have. [DEDUCED, log 64] -/
def tryReady (b : Block) : Block :=
  match b.house.prepare with
  | none => b
  | some e =>
    if b.fab.reqs.isEmpty then
      if b.house.isKeeper then
        let got := match b.house.raise with | some r => r.2 | none => []
        if (awaited b).all got.contains then
          if b.house.isFirst then commitRaise b e
          else sendState (setHouse b fun h => { h with prepared := true }) 8 [firstKeeperOf b]
        else b
      else sendState (setHouse b fun h => { h with prepared := true }) 8 [b.geo.keeper.toNat]
    else b

/-- A keeper declares modules dead (R358): the first keeper raises the generation, unless a raise is in progress; another
keeper tells it. -/
def sendDead (b : Block) (ms : List Nat) : Block :=
  let h := ownHouse b
  let mask := maskOf (ms.filterMap fun m => if houseOf b m = some h then (placeOf b m).map (· % b.torus.houseSize) else none)
  let dst := firstKeeperOf b
  let subject := match ms.filter fun m => houseOf b m != some h with | m :: _ => m | [] => ms.headD 0
  if dst = ownNo b then b
  else sendHouse b dst { stateMsg b 6 dst with dead := mask, subject := BitVec.ofNat 15 subject }

def declareDead (b : Block) (ms : List Nat) : Block :=
  let fresh := ms.filter fun m => (placeOf b m).isSome && !b.house.gone.contains m && m != ownNo b
  if fresh.isEmpty then b
  else
    let b1 := setHouse b fun h => { h with gone := h.gone ++ fresh, dead := h.dead ++ fresh }
    if b1.house.isFirst then (if b1.house.raise.isNone then tryReady (startRaise b1) else tryReady b1)
    else tryReady (sendDead b1 fresh)

/-! ### Beats (R354, R483) -/

/-- Modules to which fragments are repeated. -/
def outboxTo (b : Block) : List Nat := (b.house.outbox.map Prod.fst).dedup

/-- The lowest module that asks for admission, by member index; one is admitted at a time. -/
def nextJoin (b : Block) : Option Nat :=
  ((houseMembers b (ownHouse b)).map Prod.snd ++ b.house.joins).find? b.house.joins.contains

/-- The keeper admits a module; it is a live member again. [DEDUCED, log 65] -/
def admitNext (b : Block) : Block :=
  match nextJoin b with
  | none => b
  | some m => sendState (setHouse b fun h =>
      { h with joins := h.joins.filter (· != m), gone := h.gone.filter (· != m) }) 13 [m]

def keeperBeat (b : Block) : Block :=
  let b1 := sendState b 1 (otherMembers b)
  let b2 := if b1.house.isFirst || b1.house.dead.isEmpty then b1 else sendDead b1 b1.house.dead
  let b3 := match b2.house.raise with
    | some (e, got) => sendPrepare b2 e ((awaited b2).filter fun m => !got.contains m)
    | none => b2
  let b4 := b3.house.probes.foldl (fun z p =>
    sendHouse z p.1 { stateMsg z 4 p.1 with subject := BitVec.ofNat 15 p.1 }) b3
  admitNext (tryReady b4)

/-- A fenced module retrains through KEY every usable link that has not got new keys (R324, R360). [DEDUCED, log 65] -/
def rekeyAll (b : Block) : Block :=
  (List.range 32).foldl (fun z k =>
    if linkUsable z k && !z.house.rekeyed.getLsbD k then rekeyLink k z else z) b

/-- Step 1 of R360 is done: no link is in training, and every usable link has passed KEY, which attests this module to its
other end, since the module was fenced or reset. [DEDUCED, log 65] -/
def linksRekeyed (b : Block) : Bool :=
  (List.range 32).all fun k =>
    let st := (linkOf b k).st.toNat
    if linkUsable b k then b.house.rekeyed.getLsbD k else !(decide (2 ≤ st) && decide (st ≤ 6))

/-- JOIN to the keeper, once step 1 of R360 is done: JOIN tells the keeper that it is. [DEDUCED, log 65] -/
def askJoin (b : Block) : Block := if linksRekeyed b then sendState b 12 [b.geo.keeper.toNat] else b

def memberBeat (b : Block) : Block :=
  let k := b.geo.keeper.toNat
  if b.fab.fenced then askJoin (rekeyAll b)
  else
    let b1 := sendState b 2 [k]
    let b2 := if b1.house.admitted then b1 else askJoin b1
    let b3 := b2.house.pendingRpt.foldl (fun z e =>
      sendHouse z k { stateMsg z 3 k with subject := BitVec.ofNat 15 e.2 }) b2
    tryReady b3

/-- HOUSE_BEAT_TIMER: every HOUSE_BEAT a module repeats what it has to say. -/
def beatTimer (b : Block) : Block :=
  if b.torus.valid then
    let b1 := if b.house.isKeeper && !b.fab.fenced then keeperBeat b else memberBeat b
    if b1.fab.fenced then b1 else (outboxTo b1).foldl sendFragment b1
  else b

/-- HOUSE_MESSAGE_ARRIVAL: a house PUT at its target. -/
def houseArrival (r : Request) (b : Block) : Block :=
  if jobOf r.epoch = 0 ∧ faModule r.addr = b.geo.own then houseTake b r else b

/-! ### What a module does with a message in a sender's slot -/

/-- A relayed record has left whole: the oldest own record still unacknowledged counts as acknowledged (R508). -/
def ackOldest (b : Block) : Block :=
  match b.ft.recs.find? fun r => !r.acked && r.own == ownNo b with
  | some r => ackRec b r.num
  | none => b

/-- HM.SEQ acknowledges a fragment (R360). -/
def ackFrom (b : Block) (m : Nat) (seq : U16) : Block :=
  match nextFragment b m with
  | some f =>
    if f.seq = seq then
      let b1 := ackFragments b m seq
      let whole := match nextFragment b1 m with
        | some g => g.subject != 0 || g.kind != f.kind
        | none => true
      if f.kind = 0x0B ∧ whole = true then ackOldest b1 else b1
    else b
  | none => b

/-- The message of a type in module m's slot, none where a word of it cannot be corrected (R268); a keeper of another house
that shows a higher term is noted (R356). [DEDUCED, log 61] -/
def takeMsg (b0 : Block) (kind m : Nat) : Option HouseMsg × Block :=
  let r := readOwn b0 (houseKey b0 (slotAddr m)) 64
  let b := r.1.1
  let x := readHm r.2
  if r.1.2.isSome then (none, match r.1.2 with | some e => memFault b e | none => b)
  else if x.kind = kind ∧ b.torus.valid = true ∧ (houseOf b m).isSome = true then
    let b1 := if kind = 10 ∨ kind = 11 then b else ackFrom b m x.seq
    let term := match tlook b.house.seen x.house with | some e => e.1 | none => 0
    let note := x.house != ownHouse b && decide (6 ≤ kind) && decide (kind ≤ 9) && decide (term < x.term.toNat)
    (some x, if note then setHouse b1 fun h => { h with seen := tins h.seen x.house (x.term.toNat, m) } else b1)
  else (none, b)

/-- A BEAT that this module follows: a higher term, or at equal terms a lower module number or its keeper's own. -/
def follows (b : Block) (m : Nat) (x : HouseMsg) : Bool :=
  houseOf b m == some (ownHouse b) && m != ownNo b &&
    (decide (b.house.term.toNat < x.term.toNat) || (x.term == b.house.term && decide (m ≤ b.geo.keeper.toNat)))

/-- A module that a BEAT of the own house does not show live. -/
def notShown (b : Block) (x : HouseMsg) (m : Nat) : Bool :=
  houseOf b m != some (ownHouse b) || !x.live.getLsbD ((placeOf b m).getD 0 % b.torus.houseSize)

/-- BEAT (R354, R355). -/
def beatEff (m : Nat) (b : Block) : Block :=
  match takeMsg b 1 m with
  | (none, b1) => b1
  | (some x, b1) =>
    if follows b1 m x then
      setHouse (geoChange b1 fun g => { g with keeper := BitVec.ofNat 15 m }) fun h =>
        { h with term := x.term, live := x.live, isKeeper := false, isFirst := false, gone := h.gone.filter (notShown b1 x) }
    else b1

/-- ALIVE (R354): the keeper hears its member; HM.SEQ acknowledges. -/
def aliveEff (m : Nat) (b : Block) : Block :=
  match takeMsg b 2 m with
  | (none, b1) => b1
  | (some _, b1) => b1

/-- The keeper takes a report: it answers at once what it knows, else it probes (R357). [DEDUCED, log 63] -/
def takeReport (b : Block) (reporter suspect : Nat) : Block :=
  if (placeOf b suspect).isNone || b.house.gone.contains suspect then answerReporter b reporter suspect false
  else if suspect = ownNo b then answerReporter b reporter suspect true
  else
    let b1 := if b.house.probes.contains (suspect, reporter) then b
      else setHouse b fun h => { h with probes := h.probes ++ [(suspect, reporter)] }
    sendHouse b1 suspect { stateMsg b1 4 suspect with subject := BitVec.ofNat 15 suspect }

/-- SUSPECT. [DEDUCED, log 63] -/
def suspectEff (m : Nat) (b : Block) : Block :=
  match takeMsg b 3 m with
  | (none, b1) => b1
  | (some x, b1) => if b1.house.isKeeper then takeReport b1 m x.subject.toNat else b1

/-- PROBE: the subject answers ECHO. -/
def probeEff (m : Nat) (b : Block) : Block :=
  match takeMsg b 4 m with
  | (none, b1) => b1
  | (some _, b1) => sendHouse b1 m { stateMsg b1 5 m with subject := b1.geo.own }

/-- Every reporter of a suspect is answered. -/
def closeProbes (b : Block) (suspect : Nat) (alive : Bool) : Block :=
  let rs := b.house.probes.filter fun p => p.1 == suspect
  rs.foldl (fun z p => answerReporter z p.2 suspect alive)
    (setHouse b fun h => { h with probes := h.probes.filter fun p => p.1 != suspect })

/-- ECHO: to the keeper, from a subject that lives; to a reporter, from the keeper that answers. -/
def echoEff (m : Nat) (b : Block) : Block :=
  match takeMsg b 5 m with
  | (none, b1) => b1
  | (some x, b1) =>
    if b1.house.isKeeper then closeProbes b1 m true
    else if m = b1.geo.keeper.toNat then answerOwn b1 x.subject.toNat 0
    else b1

/-- The modules a DEAD names: members of the sender's house by index, and its subject. -/
def namedDead (b : Block) (x : HouseMsg) : List Nat :=
  ((List.range 64).filterMap fun j =>
    if x.dead.getLsbD j then b.torus.places.getD (x.house * b.torus.houseSize + j) none else none) ++ [x.subject.toNat]

/-- DEAD: to the first keeper, naming members; to a reporter, from the keeper that answers. [DEDUCED, log 63] -/
def deadEff (m : Nat) (b : Block) : Block :=
  match takeMsg b 6 m with
  | (none, b1) => b1
  | (some x, b1) =>
    if b1.house.isFirst then declareDead b1 (namedDead b1 x)
    else if m = b1.geo.keeper.toNat then answerOwn b1 x.subject.toNat (deadResult b1 x.subject.toNat)
    else b1

/-- A message comes from the module that this one obeys: its keeper, or, to a keeper, the first keeper. -/
def obeys (b : Block) (m : Nat) : Bool := if b.house.isKeeper then m == firstKeeperOf b else m == b.geo.keeper.toNat

/-- PREPARE. -/
def prepareEff (m : Nat) (b : Block) : Block :=
  match takeMsg b 7 m with
  | (none, b1) => b1
  | (some x, b1) =>
    if obeys b1 m && decide (genOf b1.torus.epoch < genOf x.epoch) then
      let again := b1.house.prepare == some x.epoch
      let b2 := if again then b1 else holdPorts b1 x.epoch
      if b2.house.isKeeper && !again then
        tryReady (sendPrepare (setHouse b2 fun h => { h with raise := some (x.epoch, []) }) x.epoch (otherMembers b2))
      else tryReady b2
    else b1

/-- READY: collected; a module that has missed a COMMIT gets it again. [DEDUCED, log 64] -/
def readyEff (m : Nat) (b : Block) : Block :=
  match takeMsg b 8 m with
  | (none, b1) => b1
  | (some x, b1) =>
    if b1.house.isKeeper then
      match b1.house.raise with
      | some (e, got) =>
        if (awaited b1).contains m && !got.contains m then
          tryReady (setHouse b1 fun h => { h with raise := some (e, m :: got) })
        else b1
      | none => if genOf x.epoch < genOf b1.torus.epoch then sendState b1 9 [m] else b1
    else b1

/-- COMMIT: the new generation; a keeper passes it on, a member answers ALIVE. [DEDUCED, log 64] -/
def commitEff (m : Nat) (b : Block) : Block :=
  match takeMsg b 9 m with
  | (none, b1) => b1
  | (some x, b1) =>
    if obeys b1 m && decide (genOf b1.torus.epoch < genOf x.epoch) then
      let b2 := adoptEpoch b1 x.epoch
      if b2.house.isKeeper then sendState (setHouse b2 fun h => { h with dead := [] }) 9 (otherMembers b2)
      else sendState b2 2 [m]
    else b1

/-- The fragments of a unit that a sender's slot has shown so far: none until the fragment is the next in number; a unit
that is whole is handed on. [DEDUCED, log 62] -/
def takeFragment (t : Tbl (Nat × List Byte)) (m : Nat) (x : HouseMsg) : Tbl (Nat × List Byte) × Option (List Byte) :=
  let e := if x.subject = 0 then tget t (0, []) m else (x.subject.toNat, [])
  let y := (e.1, e.2 ++ x.body)
  if y.1 ≤ y.2.length then (tdel t m, some (y.2.take y.1)) else (tins t m y, none)

/-- [DEDUCED, log 62] -/
def isNext (b : Block) (m : Nat) (x : HouseMsg) : Bool := x.seq.toNat == nextNumber (tget b.house.got 0 m)

def markGot (m : Nat) (x : HouseMsg) (h : House) : House := { h with got := tput h.got 0 m x.seq.toNat }

/-- RELAY (R360, R435): the keeper sends a member's frame on to the host; a member takes a host frame from the header
check on, in the second of its arrival. [DEDUCED, log 66] -/
def relayEff (m second : Nat) (b : Block) : Block :=
  match takeMsg b 10 m with
  | (none, b1) => b1
  | (some x, b1) =>
    if isNext b1 m x then
      let r := takeFragment b1.house.relayIn m x
      let b2 := setHouse b1 fun h => markGot m x { h with relayIn := r.1 }
      match r.2 with
      | none => b2
      | some u =>
        if b2.house.isKeeper then
          (if cabled b2 then
            let t := bump16 b2.hp.tx b2.hp.txLow
            { b2 with hp := { b2.hp with tx := t.1, txLow := t.2 }, egress := b2.egress ++ [.clear (tlook b2.hp.relayed m) u] }
          else b2)
        else if m = b2.geo.keeper.toNat then
          (if headerOk u then transportTake (hpCount b2 fun h => { h with sender := none }) u second
           else hpCount b2 fun h => { h with dropHdr := satAdd h.dropHdr 1 })
        else b2
    else b1

/-- SIG (R508): the keeper holds a member's record. -/
def sigEff (m : Nat) (b : Block) : Block :=
  match takeMsg b 11 m with
  | (none, b1) => b1
  | (some x, b1) =>
    if isNext b1 m x then
      let r := takeFragment b1.house.sigIn m x
      let b2 := setHouse b1 fun h => markGot m x { h with sigIn := r.1 }
      match (if b2.house.isKeeper then r.2 else none) with
      | none => b2
      | some u => match readSig u with
        | some s => holdRec b2 s
        | none => b2
    else b1

/-- Every link of this module whose other end is module m has passed KEY in its present training (R360).
[DEDUCED, log 65] -/
def keyedWith (b : Block) (m : Nat) : Bool :=
  (List.range 32).all fun k => !linkUsable b k || (linkOf b k).peer.toNat != m || (linkOf b k).keyed

/-- JOIN: the keeper admits the module in its turn. -/
def joinEff (m : Nat) (b : Block) : Block :=
  match takeMsg b 12 m with
  | (none, b1) => b1
  | (some _, b1) =>
    if b1.house.isKeeper && houseOf b1 m == some (ownHouse b1) && !b1.house.joins.contains m && keyedWith b1 m then
      setHouse b1 fun h => { h with joins := h.joins ++ [m] }
    else b1

/-- ADMIT (R360): a fenced module or a spare must have attested afresh on every link first. It adopts the epoch, leaves the fenced
state, and holds no context of the job. [DEDUCED, log 65] -/
def admitEff (m : Nat) (b : Block) : Block :=
  match takeMsg b 13 m with
  | (none, b1) => b1
  | (some x, b1) =>
    if m = b1.geo.keeper.toNat ∧ ((b1.fab.fenced = false ∧ b1.house.admitted = true) ∨ linksRekeyed b1 = true) then
      let mine := if b1.fab.fenced then (b1.ctxs.filter fun e => jobOf e.2.epoch == jobOf x.epoch).map Prod.fst else []
      let b2 := mine.foldl destroyCtx b1
      { b2 with
        torus := { b2.torus with epoch := x.epoch }, fab := { b2.fab with fenced := false, portsHeld := false }
        house := { b2.house with admitted := true, prepare := none, prepared := false } }
    else b1

/-! ### Silence and reports -/

/-- MEMBER_SILENCE (R354). -/
def memberSilence (m : Nat) (b : Block) : Block :=
  if b.house.isKeeper && (otherMembers b).contains m then declareDead b [m] else b

/-- Member indices in the mask of the last BEAT; before any BEAT, the members the table names. [DEDUCED, log 61] -/
def liveOrder (b : Block) : List Nat :=
  let ms := (houseMembers b (ownHouse b)).filter fun e =>
    (b.house.live == 0 || b.house.live.getLsbD e.1) && e.2 != b.geo.keeper.toNat
  sortPages (ms.map Prod.snd)

/-- The turn of a module in the order of succession, counted from 1. -/
def turnOf (b : Block) (m : Nat) : Option Nat := ((liveOrder b).findIdx? (· == m)).map (· + 1)

/-- Take the role by succession (R355): the silent keeper is declared dead at once. -/
def takeRole (b : Block) (c : Nat) : Block :=
  let old := b.geo.keeper.toNat
  let b1 := geoChange b fun g => { g with keeper := g.own }
  let b2 := setHouse b1 fun h =>
    { h with isKeeper := true, isFirst := ownHouse b == 0, term := h.term + BitVec.ofNat 32 c,
             successions := satAdd h.successions 1, admitted := true }
  let b3 := declareDead b2 [old]
  sendState b3 1 (otherMembers b3)

/-- KEEPER_SILENCE: the silence has lasted c × HOUSE_KEEPER_TO. -/
def keeperSilence (c : Nat) (b : Block) : Block :=
  if b.torus.valid && !b.house.isKeeper && !b.fab.fenced && turnOf b (ownNo b) == some c then takeRole b c else b

/-- PROBE_TIMEOUT: the suspect is dead, its reporters are answered. -/
def probeTimeout (m : Nat) (b : Block) : Block :=
  if b.house.isKeeper && b.house.probes.any (fun p => p.1 == m) then
    closeProbes (declareDead b [m]) m false
  else b

/-- READY_TIMEOUT: a module whose READY is missing joins the dead of this raise. -/
def readyTimeout (m : Nat) (b : Block) : Block :=
  match b.house.raise with
  | some r =>
    if b.house.isKeeper && (awaited b).contains m && !r.2.contains m then
      tryReady (setHouse b fun h => { h with gone := h.gone ++ [m] })
    else b
  | none => b

/-- SUSPECT_REPORT (R357): a report not seen before goes to the keeper, or is the keeper's own. -/
def suspectReport (c : Nat) (b : Block) : Block :=
  let r := readOwn b (reportBase b c) 16
  let n := leNat (r.2.take 8)
  if resident b c && b.torus.valid && r.1.2.isNone && tget b.house.seenRpt 0 c != n then
    let s := leNat ((r.2.drop 8).take 2) % 2 ^ 15
    let b := r.1.1
    let b1 := setHouse b fun h =>
      { h with seenRpt := tput h.seenRpt 0 c n, pendingRpt := h.pendingRpt ++ [(c, s)] }
    if b1.house.isKeeper then takeReport b1 (ownNo b1) s
    else
      let k := b1.geo.keeper.toNat
      sendHouse b1 k { stateMsg b1 3 k with subject := BitVec.ofNat 15 s }
  else b

end Sys2Proof.Machine
end

