-- ==== Sys2Proof/Machine/Registers.lean ====
section
/-!
DEFINITION. Register writes: clamps (R447, R448), shadows and strobes (R442, R443), guarded pairs and locks (R444 to R446),
masked writes (R441), and what the control registers of each block do (R130, R263, R287, R325, R386, R436, R494 to R496,
R512, R513). A write answers the block and the clamps it counted.
-/
namespace Sys2Proof.Machine

abbrev Wr := Block × Nat

/-- A write that is ignored and counts one clamp in block n. -/
def ignored (b : Block) (n : Nat) : Wr := (blkClamp b n 1, 1)
def counted (b : Block) (n k : Nat) : Wr := (blkClamp b n k, k)

/-! ### Guarded pairs and locks (R444 to R446) -/

/-- Index of the chip block. -/
def chipBlk : Nat := 0

/-- A pair at offset A of block n is discarded or refused: GUARD_DROP, GUARD_LAST, CHIP_EVENT.GUARD. -/
def guardDrop (b : Block) (n a : Nat) : Block :=
  { b with
    chip := { b.chip with
      guardDrop := satAdd b.chip.guardDrop 1, guardLast := BitVec.ofNat 32 ((n * 0x10000 + a) / 4) }
    chipEvent := b.chipEvent ||| 1 }

def setPair (b : Block) (n : Nat) (p : Option (Nat × U32 × Nat)) : Block := setBlk b n { blkOf b n with pair := p }

/-- A pending half whose window of 64 writes is used up is discarded. [DEDUCED, log 80] -/
def expirePair (b : Block) (n : Nat) : Block :=
  match (blkOf b n).pair with
  | some (a, _, 0) => guardDrop (setPair b n none) n a
  | _ => b

/-- One more write accepted by the block counts against the window of its pending half. [DEDUCED, log 80] -/
def agePair (b : Block) (n : Nat) : Block :=
  match (blkOf b n).pair with
  | some (a, v, k + 1) => setPair b n (some (a, v, k))
  | _ => b

/-- The first half at A: it is held as pending, in place of one already pending. -/
def pairFirst (b : Block) (n a : Nat) (v : U32) : Block :=
  let b1 := match (blkOf b n).pair with | some (a0, _, _) => guardDrop b n a0 | none => b
  setPair b1 n (some (a, v, 64))

/-- The second half at A + 4: the value, when it completes the pair. -/
def pairSecond (b : Block) (n a : Nat) (v : U32) : Block × Option U32 :=
  match (blkOf b n).pair with
  | some (a0, x, _) => if a0 = a ∧ v = ~~~ x then (setPair b n none, some x) else (guardDrop (setPair b n none) n a, none)
  | none => (guardDrop b n a, none)

/-- CHIP_POLICY takes a value; firmware keeps NET_RECOVERY in the itinerary record (R481). -/
def setPolicy (b : Block) (v : U32) : Block :=
  { b with chip := { b.chip with policy := v.setWidth 3 }, pw := { b.pw with recovery := v.getLsbD 2 } }

/-- A write to CHIP_POLICY or its complement: ignored and counted under the lock. [DEDUCED, log 81] -/
def policyWrite (b : Block) (o : Nat) (v : U32) : Wr :=
  if b.chip.locks.getLsbD 0 then (guardDrop b chipBlk 0x20, 0)
  else if o = 0x20 then (pairFirst b chipBlk 0x20 v, 0)
  else
    let r := pairSecond b chipBlk 0x20 v
    match r.2 with
    | some x => (setPolicy r.1 x, 0)
    | none => (r.1, 0)

/-! ### Shadows (R442, R443) -/

def clampTo (lo hi x : Nat) : Nat × Nat := if x < lo then (lo, 1) else if hi < x then (hi, 1) else (x, 0)

/-- Clamp one numeric field of w bits at bit i of a value. -/
def fieldTo (i w lo hi : Nat) (v : U32 × Nat) : U32 × Nat :=
  let x := v.1.toNat / 2 ^ i % 2 ^ w
  let y := clampTo lo hi x
  (BitVec.ofNat 32 (v.1.toNat - x * 2 ^ i + y.1 * 2 ^ i), v.2 + y.2)

/-- The value a shadowed register at an offset of a kind of block takes, and its clamps; none where it is not one. -/
def shadowFix : Blk → Nat → U32 → Option (U32 × Nat)
  | .chip, o, v =>
    if o = 0xB008 ∨ o = 0xF004 then some (v, 0)
    else if o = 0xB00C then some (fieldTo 0 16 1000 4800 (v, 0))
    else if o = 0xD004 then some (fieldTo 0 32 2500 (2 ^ 32 - 1) (v, 0))
    else if o = 0xE008 then some (fieldTo 0 16 250 65535 (v, 0))
    else if o = 0xE00C ∨ o = 0xE010 then some (fieldTo 0 24 2500 16777215 (v, 0))
    else if o = 0xE014 then some (fieldTo 0 24 250 16777215 (v, 0))
    else none
  | .link _, o, v => if o = 0x000C then some (fieldTo 0 16 1 65535 (v, 0)) else none
  | .hostPort, o, v =>
    if o = 0x0008 then some (fieldTo 0 16 1 65535 (v, 0))
    else if o = 0x000C then some (fieldTo 0 16 10 65535 (v, 0))
    else if o = 0x0010 then some (fieldTo 0 8 1 255 (v, 0))
    else none
  | .mc _, o, v =>
    if o = 0x000C then some (fieldTo 0 3 0 6 (fieldTo 3 3 0 6 (fieldTo 6 3 0 6 (v, 0))))
    else if o = 0x0010 then some (fieldTo 0 16 1 65535 (v, 0))
    else if o = 0x0014 then some (fieldTo 16 16 1 65535 (v, 0))
    else none
  | .tile _, o, v => if o = 0x0020 then some (v, 0) else none
  | .vyano, _, _ => none
  | .region _, _, _ => none
  | .reckoner _, _, _ => none
  | .derrick _, _, _ => none
  | .engine _, _, _ => none
  | .none, _, _ => none

/-- A shadow comes into force. -/
def applyField (b : Block) : Blk → Nat → U32 → Block
  | .chip, o, v =>
    if o = 0xB008 then { b with pw := { b.pw with pinRetain := v.getLsbD 0 } }
    else if o = 0xB00C then { b with pw := { b.pw with cap := v.setWidth 16 } }
    else if o = 0xD004 then { b with fab := { b.fab with timeout := v } }
    else if o = 0xE008 then { b with house := { b.house with beat := v.setWidth 16 } }
    else if o = 0xE00C then { b with house := { b.house with keeperTo := v.setWidth 24 } }
    else if o = 0xE010 then { b with house := { b.house with memberTo := v.setWidth 24 } }
    else if o = 0xE014 then { b with house := { b.house with probeTo := v.setWidth 24 } }
    else { b with ft := { b.ft with trig := v &&& 0x3FFFF } }
  | .link k, _, v => setLink b k { linkOf b k with idle := v.setWidth 16 }
  | .hostPort, o, v =>
    if o = 0x0008 then { b with hp := { b.hp with sessionTo := v.setWidth 16 } }
    else if o = 0x000C then { b with hp := { b.hp with retry := v.setWidth 16 } }
    else { b with hp := { b.hp with agreeRate := v.setWidth 8 } }
  | .mc k, o, v =>
    let m := mcOf b k
    if o = 0x000C then
      setMc b k (raiseLevel { m with
        b75 := v.extractLsb' 0 3, b50 := v.extractLsb' 3 3, b25 := v.extractLsb' 6 3 })
    else if o = 0x0010 then setMc b k { m with idle := v.setWidth 16 }
    else setMc b k { m with scrubEn := v.getLsbD 0, scrubInt := v.extractLsb' 16 16 }
  | .tile t, _, v =>
    let h := tileHw b t
    setTileHw b t { h with
      gate := v.getLsbD 0, svuHold := v.getLsbD 1, scrub := v.getLsbD 2 }
  | .vyano, _, _ => b
  | .region _, _, _ => b
  | .reckoner _, _, _ => b
  | .derrick _, _, _ => b
  | .engine _, _, _ => b
  | .none, _, _ => b

/-- Every shadow of block n comes into force at one edge; PENDING clears. -/
def applyBlk (b : Block) (n : Nat) : Block :=
  let x := blkOf b n
  x.shadow.foldl (fun z e => applyField z (blkAt z n) e.1 e.2) (setBlk b n { x with shadow := [], pending := false })

/-- GROUP_STROBE: every block joined to a group whose bit is 1. -/
def strobe (b : Block) (v : U32) : Block :=
  ((b.blks.filter fun e => e.2.join && v.getLsbD e.2.group.toNat).map Prod.fst).foldl applyBlk b

/-! ### Masked writes (R441) -/

/-- Bit i of a masked write: the value it sets, or none. -/
def maskBit (v : U32) (i : Nat) : Option Bool := if v.getLsbD (i + 16) then some (v.getLsbD i) else none

/-- Data bits after a masked write. -/
def maskData (old v : U32) : U32 := (old &&& ~~~ (v >>> 16)) ||| (v &&& (v >>> 16))

/-- Do `f` with the value a masked write sets at bit i. -/
def onBit (v : U32) (i : Nat) (f : Bool → Block → Block) (b : Block) : Block :=
  match maskBit v i with
  | some x => f x b
  | none => b

/-- Do `f` where a masked write sets bit i to 1. -/
def onSet (v : U32) (i : Nat) (f : Block → Block) (b : Block) : Block := if maskBit v i = some true then f b else b

/-! ### Tiles (R130) -/

/-- Halt at the next instruction boundary, or run; a tile that a reset left at its entry starts in the step in
progress. -/
def tileHalt (t : Nat) (halt : Bool) (b : Block) : Block :=
  if tilePresent b t then
    let b1 := setTileHw b t { tileHw b t with halt := halt }
    if halt then b1
    else match b1.running with
      | none => b1
      | some c =>
        let u := UnitId.tile (tile1152 t)
        let i := img b1 c u
        settleAll (if i.run == .halted && !i.started then startUnit c b1 u else b1)
  else b

/-- A tile reset: the running context's registers of the tile, its tally entries and watch; FAULT_CAUSE and FAULT_PC;
the tile is left halted. HALT is one bit of the tile: set in one context, it holds the next context's tile too. The clock of
a gated tile runs again (R126). [DEDUCED, log 34; DEDUCED, log 83; DESIGN CHOICE, log 104] -/
def tileReset (t : Nat) (b : Block) : Block :=
  if tilePresent b t then
    let h := tileHw b t
    let b1 := setTileHw b t { h with
      halt := true, faultCause := 0, faultBank := 0, faultPc := 0, faultConf := false
      gateWake := if asleep b t then satAdd h.gateWake 1 else h.gateWake }
    match b1.running with
    | none => b1
    | some c =>
      let u := UnitId.tile (tile1152 t)
      let i := img b1 c u
      setImg (takeWake b1 u) c u { ({} : UnitImg) with cnt := i.cnt, ops := i.ops, refus := i.refus, subs := i.subs }
  else b

/-! ### Derricks, Reckoners, links, ports -/

def drkHalt (k : Nat) (x : Bool) (b : Block) : Block :=
  let b1 := setDrk b k { drkOf b k with halt := x }
  if x then b1 else settleAll b1

/-- DRK_CTRL.RESET: the queue, the work store, every structure slot and every environment, of every context.
[DEDUCED, log 40] -/
def drkReset (k : Nat) (b : Block) : Block :=
  let d := drkOf b k
  setDrk b k { d with
    queue := [], subs := [], structs := [], envs := []
    ctx := d.ctx.map fun e => (e.1, { e.2 with cur := none }) }

/-- The running context replays. -/
def replaying (b : Block) : Bool := match b.running with | some c => (ctxOf b c).replay | none => false

/-- DRK_FORCE: in replay mode only; it is the running context's. [DEDUCED, log 40] -/
def drkForce (k : Nat) (v : U32) (b : Block) : Wr :=
  match (if replaying b then b.running else none) with
  | some c => (setRound b c k fun y => { y with force := v &&& 0x3FFFFFF }, 0)
  | none => ignored b (0x103 + 16 * k)

def rckHalt (k : Nat) (x : Bool) (b : Block) : Block :=
  let b1 := setRck b k { rckOf b k with halt := x }
  if x then b1 else settleAll b1

/-- LINK_CTRL.DISABLE: held down, or released to DETECT. [DEDUCED, log 60] -/
def linkDisable (k : Nat) (x : Bool) (b : Block) : Block :=
  let b1 := setLink b k { linkOf b k with disable := x }
  if x then (if (linkOf b1 k).st = 11 then b1 else dropLink b1 k 11)
  else if (linkOf b1 k).st = 11 then setLinkSt b1 k 1 else b1

/-- LINK_CTRL.RETRAIN. -/
def linkRetrainCmd (k : Nat) (b : Block) : Block :=
  let st := (linkOf b k).st
  if st = 7 ∨ st = 8 then retrain b k else if st = 9 ∨ st = 10 then setLinkSt b k 1 else b

def linkNarrowEn (k : Nat) (x : Bool) (b : Block) : Block := setLink b k { linkOf b k with narrowEn := x }

/-- The link is down for lane tests (R494). -/
def laneIdle (b : Block) (k : Nat) : Bool := (linkOf b k).st == 9 || (linkOf b k).st == 10 || (linkOf b k).st == 11

/-- An error injected on a lane in near loopback is seen by its checker: one bit of a locked PRBS lane, or of a code word
of the flit pattern. [DEDUCED, log 82] -/
def laneInject (k : Nat) (b : Block) : Block :=
  let l := linkOf b k
  if l.loop = 1 then
    if 1 ≤ l.pattern.toNat ∧ l.pattern.toNat ≤ 3 then
      setLink b k { l with errs := (List.range 9).foldl (fun t j =>
        if l.lanes.getLsbD j && l.locked.getLsbD j then tput t 0 j (satAdd (tget t 0 j) 1) else t) l.errs }
    else if l.pattern = 4 then
      -- which bit of which slot of each lane is inverted is not stated
      let w := freshWord b
      let bad := (List.range 648).filter fun n =>
        let j := symbolLane false l.spared n
        l.lanes.getLsbD j && w.1.toNat / 81 ^ j % 81 == symbolSlot false n
      let errs := (List.range 18).map fun i =>
        (bad.filter fun n => n / 36 == i).foldl
          (fun (e : BitVec 144) n => e ^^^ (1#144 <<< (4 * (n % 36) + (w.1 >>> (n % 8)).toNat % 4))) 0
      let found := errs.map eccDecode
      setLink w.2 k { l with
        flitCorr := satAdd l.flitCorr (found.filter fun x => x != .clean && x != .bad).length
        flitUncorr := satAdd l.flitUncorr (found.filter fun x => x == .bad).length }
    else b
  else b

/-- LANE_TEST.PATTERN, with loopback and lanes: the counts clear. -/
def lanePattern (k : Nat) (pattern : BitVec 3) (loop : BitVec 2) (lanes : BitVec 9) (b : Block) : Block :=
  let l := linkOf b k
  setLink b k { l with
    pattern := pattern, loop := loop, lanes := lanes, locked := 0, lost := 0, errs := [], bits := 0, flitCorr := 0,
    flitUncorr := 0 }

/-- A masked write of LANE_TEST: undefined codes take the largest defined one below them. -/
def laneWrite (k : Nat) (v : U32) (b : Block) : Wr :=
  let n := 0x80 + k
  if laneIdle b k then
    let l := linkOf b k
    let d := maskData (fld l.pattern 0 ||| fld l.loop 3 ||| fld l.lanes 5) v
    let p := clampTo 0 4 (d.toNat % 8)
    let q := clampTo 0 2 (d.toNat / 8 % 4)
    let touched := (v >>> 16).toNat % 8 != 0
    let pat := BitVec.ofNat 3 p.1
    let lp := BitVec.ofNat 2 q.1
    let ln : BitVec 9 := d.extractLsb' 5 9
    let b1 := if touched then lanePattern k pat lp ln b
      else setLink b k { l with pattern := pat, loop := lp, lanes := ln }
    counted (onSet v 14 (laneInject k) b1) n (p.2 + q.2)
  else ignored b n

/-- HP_CTRL.DISABLE: the port is held down, or comes up again as the link reports. -/
def hpDisable (x : Bool) (b : Block) : Block :=
  { b with hp := { b.hp with disable := x, link := if x then 0 else b.hp.link } }

/-- HP_CTRL.FORCE_800: a link that is up runs at 800 Gb/s. -/
def hpForce (x : Bool) (b : Block) : Block :=
  { b with hp := { b.hp with force800 := x, link := if x && b.hp.link == 2 then 3 else b.hp.link } }

/-- A masked write of HP_TEST, while the port is disabled (R496, R513). -/
def hpTestWrite (v : U32) (b : Block) : Wr :=
  if b.hp.disable then
    let d := maskData (b.hp.test.setWidth 32) v
    let p := clampTo 0 4 (d.toNat % 8)
    let x : U16 := ((d &&& 0xFF8) ||| BitVec.ofNat 32 p.1).setWidth 16
    let touched := (v >>> 16).toNat % 8 != 0
    counted { b with hp := { b.hp with test := x, testErr := if touched then [] else b.hp.testErr } } 0xC0 p.2
  else ignored b 0xC0

/-! ### One write -/

/-- Alerts whose condition holds are set again at once (R491): the input below 40 V or above 59.5 V in the last two
samples, a cap level in force. -/
def heldAlerts (p : Power) : BitVec 6 :=
  (if p.vin.toNat < 4000 ∧ p.lastVin < 4000 then 1 else 0) ||| (if 5950 < p.vin.toNat ∧ 5950 < p.lastVin then 2 else 0) |||
    (if p.capLevel = 0 then 0 else 4)

/-- [DEDUCED, log 81] -/
def chipWrite (b : Block) (o : Nat) (v : U32) : Wr :=
  if o = 0x0008 then ({ b with chipEvent := b.chipEvent &&& ~~~ v }, 0)
  else if o = 0x0010 then (strobe b v, 0)
  else if o = 0x0020 ∨ o = 0x0024 then policyWrite b o v
  else if o = 0xB010 then ({ b with pw := { b.pw with alert := (b.pw.alert &&& ~~~ v.setWidth 6) ||| heldAlerts b.pw } }, 0)
  else ignored b chipBlk

/-- A write to a register of a block that is neither common nor shadowed. -/
def plainWrite (b : Block) (n o : Nat) (v : U32) : Blk → Wr
  | .chip => chipWrite b o v
  | .link k =>
    if o = 0x0008 then (onSet v 1 (linkRetrainCmd k) (onBit v 2 (linkNarrowEn k) (onBit v 0 (linkDisable k) b)), 0)
    else if o = 0x0100 then laneWrite k v b
    else ignored b n
  | .hostPort =>
    if o = 0x0004 then (onBit v 1 hpForce (onBit v 0 hpDisable b), 0)
    else if o = 0x0100 then hpTestWrite v b
    else ignored b n
  | .mc k => if o = 0x0008 then (onSet v 0 (mcFlush k) b, 0) else ignored b n
  | .reckoner k => if o = 0x0008 then (onBit v 0 (rckHalt k) b, 0) else ignored b n
  | .derrick k =>
    if o = 0x0008 then (onSet v 1 (drkReset k) (onBit v 0 (drkHalt k) b), 0)
    else if o = 0x0010 then drkForce k v b
    else ignored b n
  | .tile t => if o = 0x0008 then (onSet v 1 (tileReset t) (onBit v 0 (tileHalt t) b), 0) else ignored b n
  | .vyano => ignored b n
  | .region _ => ignored b n
  | .engine _ => ignored b n
  | .none => ignored b n

/-- A write of block n at offset o: its pair's window, the common registers (R438), shadows, the rest. -/
def blkWrite (b0 : Block) (n o : Nat) (v : U32) : Wr :=
  match blkAt b0 n with
  | .none => (b0, 0)
  | k =>
    let half := n = chipBlk ∧ (o = 0x20 ∨ o = 0x24)
    let b1 := expirePair b0 n
    let b := if half then b1 else agePair b1 n
    if o = 0xFFF0 then (setBlk b n { blkOf b n with group := v.setWidth 4, join := v.getLsbD 4 }, 0)
    else if o = 0xFFF4 then (if v.getLsbD 0 then applyBlk b n else b, 0)
    else match shadowFix k o v with
      | some r =>
        let x := blkOf b n
        counted (setBlk b n { x with shadow := tins x.shadow o r.1, pending := true }) n r.2
      | none => plainWrite b n o v k

/-- A write at a control address. -/
def ctlWrite (b : Block) (l : Nat) (v : U32) : Wr :=
  if isControl l then blkWrite b (blkIndex l) (l % 0x10000) v else (b, 0)

/-- The block that a write leaves. -/
def Wr.block (r : Wr) : Block := r.1

/-- [DESIGN CHOICE, log 16] -/
def regWrite (l : Nat) (v : U32) (b : Block) : Block := Wr.block (ctlWrite b (l / 4 * 4) v)

/-- Control address of offset o in block n. -/
def ctlAddr (n o : Nat) : Nat := ctlBase + n * 0x10000 + o

/-! ### The rows of single registers -/

/-- UPD_GO on block n. -/
def updGo (n : Nat) (b : Block) : Block := regWrite (ctlAddr n 0xFFF4) 1 b

/-- GROUP_STROBE. -/
def groupStrobe (fire : BitVec 16) (b : Block) : Block := regWrite (ctlAddr chipBlk 0x10) (fire.setWidth 32) b

/-- GUARDED_PAIR_WRITE: both halves, as written to CHIP_POLICY and its complement. -/
def guardedPair (x y : U32) (b : Block) : Block :=
  regWrite (ctlAddr chipBlk 0x24) y (regWrite (ctlAddr chipBlk 0x20) x b)

/-- GUARD_WINDOW_EXPIRY on block n. [DEDUCED, log 80] -/
def guardExpiry (n : Nat) (b : Block) : Block := expirePair b n

/-- CHIP_EVENT_CLEAR: W1C of CHIP_EVENT, or of PWR_ALERT. -/
def eventClear (alert : Bool) (v : U32) (b : Block) : Block := regWrite (ctlAddr chipBlk (if alert then 0xB010 else 8)) v b

/-- COUNTER_LOW_READ: a read at a control address. -/
def counterLowRead (l : Nat) (b : Block) : Block := latchLow b (l / 4 * 4)

/-- LANE_TEST with PATTERN, LOOP and LANES all written. [DEDUCED, log 82] -/
def laneTestWord (pattern : BitVec 3) (loop : BitVec 2) (lanes : BitVec 9) : U32 :=
  0x3FFF0000 ||| fld pattern 0 ||| fld loop 3 ||| fld lanes 5

/-- HP_TEST with PATTERN, CHECK and LANES all written. -/
def hpTestWord (v : BitVec 12) : U32 := 0x0FFF0000 ||| v.setWidth 32

/-- A masked write of one bit. -/
def bitWrite (i : Nat) (x : Bool) : U32 := (1#32 <<< (i + 16)) ||| ofBool x i

end Sys2Proof.Machine
end

