-- ==== Sys2Proof/Machine/HostCmd.lean ====
section
/-!
DEFINITION. Host commands (R424 to R429, R463, R464, R529, R533) and bulk frames (R431, R432).
-/
namespace Sys2Proof.Machine

/-- What a command answers. -/
structure Ans where
  status : Nat
  detail : Nat := 0
  data : List Byte := []
deriving DecidableEq, Repr

abbrev Run := Block × Ans

def done (b : Block) : Run := (b, { status := 0 })
def state5 (b : Block) : Run := (b, { status := 5 })
def refuse (b : Block) (reason : Nat) : Run := (b, { status := 6, detail := reason })
def malformed (b : Block) : Run := (b, { status := 0x0A })

/-- Command bytes from 0x00 to the end of the parameters. -/
def cmdBytes (op : Nat) (h : Cmd) : List Byte :=
  leBytes 2 op ++ leBytes 2 h.flags.toNat ++ leBytes 4 h.len ++ leBytes 8 h.id.toNat ++ leBytes 8 h.counter.toNat ++
  leBytes 2 h.target ++ leBytes 6 0 ++ h.params

/-- The response as a control frame's payload. -/
def replyBytes (target : Nat) (r : Reply) : List Byte :=
  leBytes 2 r.op ++ leBytes 2 r.status ++ leBytes 4 r.data.length ++ leBytes 8 r.id.toNat ++ leBytes 8 r.detail.toNat ++
  leBytes 2 target ++ leBytes 6 0 ++ r.data

def sendReply (b : Block) (session target : Nat) (r : Reply) : Block :=
  sendOn { b with egress := b.egress ++ [.reply session r.op r.status r.id r.detail r.data] } session 0 (replyBytes target r)

/-- Keep a response among the last 64, and send it. -/
def answer (b : Block) (op : Nat) (h : Cmd) (a : Ans) : Block :=
  let r : Reply := { op := op, status := a.status, id := h.id, detail := BitVec.ofNat 64 a.detail, data := a.data }
  match tlook b.sessions h.session with
  | none => b
  | some s =>
    let keep := (s.kept ++ [r]).drop (s.kept.length - 63)
    sendReply (setSession b h.session { s with kept := keep }) h.session h.target r

/-- A critical command refused at steps 2 to 4 of R428 is counted. -/
def refusedCount (b : Block) : Block := { b with hp := { b.hp with cmdRefused := satAdd b.hp.cmdRefused 1 } }

/-- The persisted ceiling rises before a command whose counter reaches it (R429). -/
def raiseW (b : Block) (c : Nat) : Block :=
  if b.vy.ctrCeil ≤ c then nvWrite b fun v => { v with ctrCeilNv := v.ctrCeilNv.write ((c / 256 + 1) * 256) } else b

/-- Steps 2 to 6 of R428 for a critical command; the role and the execution for any other.
[DEDUCED, log 66; DEDUCED, log 95] -/
def runCommand (b : Block) (s : Session) (op : Nat) (critical : Bool) (roles : List Role) (h : Cmd)
    (f : Block → Session → Run) : Run :=
  if h.flags.getLsbD 0 ≠ critical then (b, { status := 2 })
  else if h.len ≠ h.params.length then malformed b
  else if !roles.contains s.role then state5 (if critical then refusedCount b else b)
  else if critical then
    if Config.kmac (commandKey s.z) (leBytes 8 h.session ++ cmdBytes op h) 128 (ascii "ZTM-T32 CMD") ≠ h.check then
      (refusedCount b, { status := 3 })
    else if h.counter.toNat ≤ b.hp.lastCtr.toNat then (refusedCount b, { status := 4 })
    else
      let b1 := raiseW b h.counter.toNat
      f { b1 with hp := { b1.hp with lastCtr := h.counter } } s
  else f b s

/-- A command of an open session: the duplicate test, the relay of one that names another module (R435), then its
execution and response. [DEDUCED, log 95] -/
def command (op : Nat) (critical : Bool) (roles : List Role) (h : Cmd) (f : Block → Session → Run) (b : Block) : Block :=
  match tlook b.sessions h.session with
  | none => b
  | some s =>
    match s.kept.find? fun r => r.id == h.id with
    | some r => sendReply b h.session h.target r
    | none =>
      if h.target ≠ b.geo.own.toNat then
        (if relayMember b h.target then b else answer b op h { status := 9 })
      else
        let r := runCommand b s op critical roles h f
        answer r.1 op h r.2

def anyRole : List Role := [.opened, .operator, .owner]
/-- Roles that may read registers and signature records (R463): the owner is not among them. -/
def readerRole : List Role := [.opened, .operator]
def operatorOnly : List Role := [.operator]
def operatorOwner : List Role := [.operator, .owner]

/-! ### Parameters -/

def par (h : Cmd) (o n : Nat) : Nat := leNat ((h.params.drop o).take n)

/-- Clamps of command parameters count in the host port block (R425, R436). -/
def hpClamp (b : Block) (n : Nat) : Block := blkClamp b 0xC0 n

/-- Add the clamps to a done response's detail. -/
def withClamps (n : Nat) (r : Run) : Run :=
  (hpClamp r.1 n, if r.2.status = 6 ∨ r.2.detail ≠ 0 then r.2 else { r.2 with detail := n })

/-- A context number parameter: above 15 it takes 15. -/
def ctxPar (h : Cmd) (o : Nat) : Nat × Nat := clampTo 0 15 (par h o 1)

/-- A command of exactly n parameter bytes. -/
def sized (h : Cmd) (n : Nat) (b : Block) (f : Run) : Run := if h.params.length = n then f else malformed b

/-- The session holds the context (R425), and an owner's key is the one it is bound to. -/
def holds (x : Ctx) (id : Nat) (s : Session) : Bool :=
  x.session == id && (s.role != .owner || x.ownerKey == some s.peer)

/-- A context command from the session that holds the context; `anyOp` lets every operator session issue it. -/
def onContext (h : Cmd) (anyOp : Bool) (b : Block) (s : Session) (f : Block → Nat → Run) : Run :=
  let c := ctxPar h 0
  withClamps c.2 (
    match tlook b.ctxs c.1 with
    | none => state5 b
    | some x => if holds x h.session s || (anyOp && s.role == .operator) then f b c.1 else state5 b)

/-- The block of a successful change of context state, or status 0x0005. -/
def orState (b : Block) : Option Block → Run
  | some x => done x
  | none => state5 b

/-! ### Commands for anyone -/

/-- STATUS. [DESIGN CHOICE, log 69] -/
def statusData (b : Block) : List Byte :=
  leBytes 1 (powerCode b) ++ leBytes 1 b.hp.link.toNat ++ leBytes 1 b.sessions.length ++ leBytes 1 b.pw.ga.toNat ++
  leBytes 1 b.hp.lowPower.toNat ++ leBytes 1 0 ++ leBytes 2 (sumOf (b.ctxs.map fun e => 2 ^ e.1)) ++
  leBytes 8 b.hp.lastCtr.toNat

def cmdStatus (h : Cmd) : Block → Block :=
  command 0x0001 false anyRole h fun b _ => (b, { status := 0, data := statusData b })

/-- IDENTITY: the certificate and a report bound to a 64-byte challenge (R460). [DEDUCED, log 95] -/
def cmdIdentity (h : Cmd) : Block → Block :=
  command 0x0002 false anyRole h fun b _ => sized h 64 b (
    match (if canKey b then report b h.params 0 else none) with
    | some r => (r.2, { status := 0, data := b.vy.cert ++ r.1 })
    | none => refuse b 1)

/-- SESSION_CLOSE: the response leaves first (R423). -/
def cmdSessionClose (h : Cmd) (b : Block) : Block :=
  let b1 := command 0x0003 false anyRole h (fun x _ => done x) b
  match tlook b1.sessions h.session with
  | some s =>
    if (s.kept.getLast?.map fun r => (r.op, r.status, r.id)) = some (3, 0, h.id) then closeSession b1 h.session else b1
  | none => b1

/-- A register derived from a confidential context (R469): it reads zero. [DEDUCED, log 78] -/
def derived (b : Block) (l : Nat) : Bool :=
  let n := blkIndex l
  let o := l % 0x10000
  let conf (c : Nat) : Bool := (match tlook b.ctxs c with | some x => x.confidential | none => false)
  let live := match b.running with | some c => conf c | none => false
  match blkAt b n with
  | .tile t =>
    live && ((decide (0x80 ≤ o) && decide (o < 0xB8)) || (decide (0x18 ≤ o) && decide (o < 0x20))) ||
      (tileHw b t).faultConf && decide (0x10 ≤ o) && decide (o < 0x18)
  | .reckoner _ => live && decide (0x80 ≤ o) && decide (o < 0xC0)
  | .derrick _ => live && decide (0x80 ≤ o) && decide (o < 0xB0)
  | .engine _ => live && decide (0x80 ≤ o) && decide (o < 0x88)
  | .mc _ => decide (0x100 ≤ o) && decide (o < 0x180) && conf ((o - 0x100) / 8)
  | .chip => decide (0xC040 ≤ o) && decide (o < 0xC0C0) && conf ((o - 0xC040) / 8)
  | _ => false

/-- The value a host read of a register returns. [DEDUCED, log 78] -/
def hostRegister (b : Block) (l : Nat) : U32 := if derived b l then 0 else ctlRead b l

/-- REG_READ: 8-byte local address. [DESIGN CHOICE, log 69] -/
def cmdRegRead (h : Cmd) : Block → Block :=
  command 0x0010 false readerRole h fun b _ =>
    let l := par h 0 8 / 4 * 4
    if h.params.length = 8 ∧ isControl l = true then
      (latchLow b l, { status := 0, data := leBytes 4 (hostRegister b l).toNat })
    else malformed b

/-- The answer to a register write: done, with the clamps in its detail. -/
def wrote (r : Block × Nat) : Run := (r.1, { status := 0, detail := r.2 })

/-- REG_WRITE: 8-byte local address and value. [DESIGN CHOICE, log 69] -/
def cmdRegWrite (h : Cmd) : Block → Block :=
  command 0x0011 false operatorOnly h fun b _ =>
    let l := par h 0 8 / 4 * 4
    if h.params.length = 12 ∧ isControl l = true then
      if b.chip.policy.getLsbD 0 then refuse b 2
      else if blkAt b (blkIndex l) = .vyano then refuse b 4
      else
        wrote (ctlWrite b l (BitVec.ofNat 32 (par h 8 4)))
    else malformed b

/-! ### Contexts -/

/-- The parameters of CTX_CREATE (R426), clamped, and the clamps. -/
def ctxReq (h : Cmd) : CtxReq × Nat :=
  let c := ctxPar h 0
  let n := clampTo 1 256 (par h 2 2)
  let lim := clampTo 10 86400000 (par h 8 4)
  let fl := par h 1 1
  ({ ctx := c.1, replay := fl.testBit 0, confidential := fl.testBit 1, restore := fl.testBit 2,
     epoch := BitVec.ofNat 32 (par h 4 4), limit := lim.1, step := par h 0x10 6, seed := BitVec.ofNat 64 (par h 0x18 8),
     ranges := (List.range n.1).map fun j => (par h (0x20 + 16 * j) 8, par h (0x28 + 16 * j) 8) },
   c.2 + n.2 + lim.2)

/-- A member creates no context of its job before its ADMIT (R483). -/
def mayCreate (b : Block) (epoch : U32) : Bool :=
  !b.torus.valid || b.house.admitted || jobOf epoch != jobOf b.torus.epoch

def cmdCtxCreate (h : Cmd) : Block → Block :=
  command 0x0020 true operatorOnly h fun b _ =>
    let r := ctxReq h
    if h.params.length ≠ 0x20 + 16 * r.1.ranges.length then malformed b
    else if !mayCreate b r.1.epoch then state5 b
    else withClamps r.2 (match createRefusal b r.1 with
      | some e => refuse b e
      | none => done (createCtx b h.session r.1))

def cmdCtxDestroy (h : Cmd) : Block → Block :=
  command 0x0021 true operatorOnly h fun b s => sized h 1 b (onContext h true b s fun x c => done (destroyCtx x c))

def cmdCtxRun (h : Cmd) : Block → Block :=
  command 0x0022 false operatorOnly h fun b s => sized h 1 b (onContext h false b s fun x c => orState x (runCtx x c))

def cmdCtxDrain (h : Cmd) : Block → Block :=
  command 0x0023 false operatorOnly h fun b s => sized h 1 b (onContext h true b s fun x c => orState x (drainCtx x c))

/-- CHECKPOINT (R402): context, then the step in 6 bytes. [DESIGN CHOICE, log 69] -/
def cmdCheckpoint (h : Cmd) : Block → Block :=
  command 0x0024 false operatorOwner h fun b s => sized h 7 b (onContext h false b s fun x c =>
    let st := par h 1 6
    if st < (ctxOf x c).step.toNat then refuse x 0x40
    else done (setCtx x c { ctxOf x c with ckStep := some st }))

def cmdResume (h : Cmd) : Block → Block :=
  command 0x0025 false operatorOwner h fun b s => sized h 1 b (onContext h false b s fun x c => orState x (resumeCtx x c))

/-- STREAM_ATTACH: an operator for a context that is not confidential, the bound owner for one that is. -/
def cmdStreamAttach (h : Cmd) : Block → Block :=
  command 0x0026 false operatorOwner h fun b s => sized h 1 b (
    let c := ctxPar h 0
    withClamps c.2 (match tlook b.ctxs c.1 with
      | none => state5 b
      | some x =>
        if (if x.confidential then s.role == .owner && x.ownerKey == some s.peer else s.role == .operator) then
          done (attachCtx b c.1 h.session)
        else state5 b))

/-- PROGRAM_LOAD (R533). -/
def cmdProgramLoad (h : Cmd) : Block → Block :=
  command 0x0030 true operatorOnly h fun b s => sized h 0x50 b (onContext h false b s fun x c =>
    if (ctxOf x c).st = .created ∨ (ctxOf x c).st = .reset then
      match loadRefusal x c (par h 8 8) (h.params.drop 0x10) with
      | some e => refuse x e
      | none =>
        let r := readOwn x (par h 8 8) (rdNat x (par h 8 8 + 8) 8)
        match r.1.2 with
        | none => done (loadImage r.1.1 c (par h 8 8))
        | some e => refuse (memFault r.1.1 e) 0x1B
    else state5 x)

/-! ### Keys, firmware, locks, debug -/

/-- KEY_LOAD with its kind byte checked against the row's kind. -/
def keyLoad (kind n : Nat) (roles : List Role) (h : Cmd) (f : Block → Session → Run) : Block → Block :=
  command 0x0031 true roles h fun b s => if par h 0 1 = kind then sized h n b (f b s) else malformed b

/-- Kind 0x01 (R464, R468): context, then the program digest. [DESIGN CHOICE, log 69; DEDUCED, log 95] -/
def cmdBindOwner (h : Cmd) : Block → Block :=
  keyLoad 1 66 [.owner] h fun b s =>
    let c := ctxPar h 1
    withClamps c.2 (match tlook b.ctxs c.1 with
      | none => state5 b
      | some x =>
        if !x.confidential then refuse b 0x38
        else if x.ownerKey.isSome then refuse b 0x39
        else if !canKey b then refuse b 1
        else done (setCtx b c.1 { x with
          ownerKey := some s.peer, boundDigest := some (h.params.drop 2),
          ledgerKey := contextKey s.z "LEDGER" c.1, ckptKey := contextKey s.z "CKPT" c.1 }))

/-- Kind 0x02: slot, then the key digest. -/
def cmdEnrol (h : Cmd) : Block → Block :=
  keyLoad 2 66 operatorOnly h fun b _ =>
    let n := clampTo 0 3 (par h 1 1)
    withClamps n.2 (done (nvWrite b fun v => { v with opsNv := v.opsNv.write (v.ops.set n.1 (some (h.params.drop 2))) }))

/-- Kind 0x03: slot; the issuing session's own is refused. -/
def cmdRemove (h : Cmd) : Block → Block :=
  keyLoad 3 2 operatorOnly h fun b s =>
    let n := clampTo 0 3 (par h 1 1)
    withClamps n.2 (
      if b.vy.ops.getD n.1 none = some (Config.shake s.peer) then refuse b 0x3A
      else done (nvWrite b fun v => { v with opsNv := v.opsNv.write (v.ops.set n.1 none) }))

/-- FIRMWARE_LOAD (R432, R459): it opens the load window; once the host has filled it, it verifies and installs what
the window holds. [DEDUCED, log 75] -/
def cmdFirmwareLoad (h : Cmd) : Block → Block :=
  command 0x0032 true operatorOnly h fun b _ =>
    match b.hp.window with
    | none => done { b with hp := { b.hp with window := some [] } }
    | some x =>
      let b1 := { b with hp := { b.hp with window := none } }
      match installWindow b1 x with
      | .inl e => refuse b1 e
      | .inr b2 => done b2

/-- LOCK (R446): the lock bits to set. -/
def cmdLock (h : Cmd) : Block → Block :=
  command 0x0040 true operatorOnly h fun b _ => sized h 4 b (
    done { b with chip := { b.chip with locks := b.chip.locks ||| BitVec.ofNat 6 (par h 0 4) } })

/-- DEBUG (R469, R510). -/
def cmdDebug (h : Cmd) : Block → Block :=
  command 0x0041 true operatorOnly h fun b _ =>
    if b.ctxs.any fun e => e.2.confidential then (b, { status := 8 })
    else done { b with chip := { b.chip with debugOn := true } }

/-- RESET (R485): kind 0 module, 1 module with RETAIN, 2 context, 3 tile; a byte whose bit 0 clears the itinerary record;
the context or tile. The reset begins after the response. -/
def resetRun (h : Cmd) (b : Block) : Run :=
  let n := par h 2 2
  let clear := (par h 1 1).testBit 0
  match par h 0 1 with
  | 0 => done { b with pw := { b.pw with phase := .resetting false, clearItin := clear } }
  | 1 => done { b with pw := { b.pw with phase := .resetting true, clearItin := clear } }
  | 2 =>
    let c := clampTo 0 15 n
    withClamps c.2 (if resident b c.1 then done { b with pw := { b.pw with resetCtx := some c.1 } } else state5 b)
  | 3 =>
    let t := clampTo 0 1151 n
    withClamps t.2 (if tilePresent b t.1 then done (tileReset t.1 b) else state5 b)
  | _ => malformed b

/-- [DESIGN CHOICE, log 69] -/
def cmdReset (h : Cmd) : Block → Block :=
  command 0x0050 true operatorOnly h fun b _ => sized h 4 b (resetRun h b)

/-! ### Fleet test, signatures, sparing, torus table -/

/-- The links of a mask. -/
def linksOf (m : U32) : List Nat := (List.range 32).filter fun k => m.getLsbD k

/-- A run takes a link to DISABLED, without regard to its traffic (R501). [DEDUCED, log 90] -/
def runLinkDown (b : Block) (k : Nat) : Block := if (linkOf b k).st = 11 then b else dropLink b k 11

/-- FLEET_TEST form 0 (R500, R501): the response carries the run number. [DEDUCED, log 76] -/
def fleetRun (h : Cmd) (b : Block) : Run :=
  let pkg := par h 1 1
  let reps := clampTo 1 65535 (par h 4 2)
  let lim := clampTo 1 3600000 (par h 8 4)
  if par h 0 1 ≠ 0 ∨ 2 < par h 2 1 ∨ 2 < par h 3 1 then malformed b
  else if runnableAny b || b.ft.run.isSome || (pkg != 0 && !b.ft.pkgs.any fun p => p.1 == pkg) then state5 b
  else
    let n := b.ft.runNo
    let m := BitVec.ofNat 32 (par h 0x10 4)
    let sel : RunSel := {
      volt := par h 2 1, clk := par h 3 1, reps := reps.1, limit := lim.1, regions := BitVec.ofNat 12 (par h 0x0C 2)
      buses := BitVec.ofNat 16 (par h 0x0E 2), links := m, patterns := BitVec.ofNat 64 (par h 0x18 8) }
    (startRun ((linksOf m).foldl runLinkDown (hpClamp b (reps.2 + lim.2))) pkg 0 none sel, { status := 0, detail := n })

def cmdFleetRun (h : Cmd) : Block → Block :=
  command 0x0060 true operatorOnly h fun b _ => sized h 0x20 b (fleetRun h b)

/-- FLEET_TEST form 1 (R499): package 0 stays. [DESIGN CHOICE, log 69; DEDUCED, log 76] -/
def cmdFleetRemove (h : Cmd) : Block → Block :=
  command 0x0060 true operatorOnly h fun b _ => sized h 0x20 b (
    let pkg := par h 1 1
    if par h 0 1 ≠ 1 then malformed b
    else if b.ft.pkgs.any fun p => p.1 == pkg then
      done { b with ft := { b.ft with pkgs := b.ft.pkgs.filter fun p => p.1 != pkg } }
    else state5 b)

/-- SIGNATURES form 0 (R508): form, format 0 CBOR or 1 JSON, two reserved bytes, first record number, count.
[DESIGN CHOICE, log 69] -/
def cmdSignaturesRead (h : Cmd) : Block → Block :=
  command 0x0061 false readerRole h fun b _ => sized h 12 b (
    let l := (b.ft.recs.filter fun r => decide (par h 4 4 ≤ r.num)).take (par h 8 4)
    if par h 0 1 ≠ 0 ∨ 1 < par h 1 1 then malformed b
    else (b, { status := 0, data := if par h 1 1 = 0 then l.flatMap sigCbor else jsonArray (l.map sigJson) }))

/-- SIGNATURES form 1: form, three reserved bytes, record number. -/
def cmdSignaturesAck (h : Cmd) : Block → Block :=
  command 0x0061 false readerRole h fun b _ => sized h 8 b (
    if par h 0 1 ≠ 1 then malformed b
    else done { b with ft := { b.ft with
      recs := b.ft.recs.map fun r => if r.num ≤ par h 4 4 then { r with acked := true } else r } })

/-- SPARE_OVERRIDE: kind 0 tile, 1 channel of a stack, 2 link; one reserved byte, the stack; the number. A mark is kept
as kind × 2^24 + stack × 2^16 + number. -/
def spareRun (h : Cmd) (b : Block) : Run :=
  let kind := par h 0 1
  let mark (x : Nat) : Run :=
    done { b with pw := { b.pw with marks := if b.pw.marks.contains x then b.pw.marks else b.pw.marks ++ [x] } }
  if b.chip.policy.getLsbD 1 then refuse b 3
  else if kind = 0 then
    let t := clampTo 0 1151 (par h 2 2)
    withClamps t.2 (done (setTileHw b t.1 { tileHw b t.1 with retire := true }))
  else if kind = 1 then
    let k := clampTo 0 11 (par h 1 1)
    let ch := clampTo 0 127 (par h 2 2)
    withClamps (k.2 + ch.2) (mark (2 ^ 24 + k.1 * 2 ^ 16 + ch.1))
  else if kind = 2 then
    let l := clampTo 0 31 (par h 2 2)
    withClamps l.2 (mark (2 ^ 25 + l.1))
  else malformed b

/-- [DESIGN CHOICE, log 69] -/
def cmdSpareOverride (h : Cmd) : Block → Block :=
  command 0x0070 true operatorOnly h fun b _ => sized h 4 b (spareRun h b)

/-- TORUS_TABLE (R329, R330): a refused table changes nothing; the clamps of an accepted one count in the chip block. -/
def cmdTorusTable (h : Cmd) : Block → Block :=
  command 0x0071 true operatorOnly h fun b _ =>
    let t := readTable h.params
    match tableRefusal b h.params.length t with
    | some e => refuse b e
    | none =>
      (storeTable (blkClamp (applyTable b t) 0 t.clamps) h.params, { status := 0, detail := t.clamps })

/-! ### Bulk frames (R431, R432) -/

/-- A bulk frame is refused: event 0x0B with its HT.SEQ and the reason, to the session that sent it.
[DEDUCED, log 77] -/
def bulkRefuse (b : Block) (id seq ctx reason : Nat) : Block :=
  let b1 := { b with hp := { b.hp with bulkRefused := satAdd b.hp.bulkRefused 1 }, eventNo := b.eventNo + 1 }
  queueEvent b1 id b.eventNo { kind := 0x0B, ctx := ctx, body := [BitVec.ofNat 64 seq, BitVec.ofNat 64 reason] }

/-- Every page of [l, l + n) belongs to the context. -/
def ctxPages (b : Block) (c l n : Nat) : Bool :=
  (List.range (pageOf (l + max n 1 - 1) + 1 - pageOf l)).all fun p => owns b c ((pageOf l + p) * pageBytes)

/-- The session may touch the context's pages: any operator, and the bound owner; of a confidential context the bound
owner alone (R463, R469). -/
def bulkRole (x : Ctx) (s : Session) : Bool :=
  if x.confidential then s.role == .owner && x.ownerKey == some s.peer else s.role == .operator

/-- The reason that refuses a bulk frame on [l, l + n) of context c's pages; `out` is that of a range outside them.
[DEDUCED, log 77] -/
def bulkRefusal (b : Block) (s : Session) (c l n out : Nat) : Option Nat :=
  match tlook b.ctxs c with
  | none => some 0x53
  | some x =>
    if !ctxPages b c l n then some out
    else if bulkRole x s then none
    else some (if x.confidential then 0x52 else out)

/-- Bytes land in memory through their controller (R275). [DEDUCED, log 77] -/
def bulkStore (b : Block) (l : Nat) (x : List Byte) : Block :=
  (writeMem (wakeStack b l) l l x).1

/-- [DESIGN CHOICE, log 14; DEDUCED, log 75] -/
def inWindow (l n : Nat) : Bool := decide (Config.windowBase ≤ l) && decide (l + n ≤ Config.windowBase + Config.windowSize)

/-- Bytes land in the firmware load window. -/
def patchBytes (w : List Byte) (o : Nat) (x : List Byte) : List Byte :=
  w.take o ++ List.replicate (o - w.length) 0 ++ x ++ w.drop (o + x.length)

/-- Contexts that wait for a reference record look for it again (R406). -/
def retryReplay (b : Block) : Block :=
  ((b.ctxs.filter fun e => e.2.phase == .refWait).map Prod.fst).foldl beginStep b

/-- A bulk write: none where it was refused. A write to control space is ignored and counted, as R292 has it. -/
def bulkWrite (b : Block) (s : Session) (id seq c l : Nat) (x : List Byte) : Block × Bool :=
  let open_ := match b.hp.window with | some _ => true | none => false
  if isControl l then (blkClamp b (blkIndex l) 1, true)
  else if open_ && inWindow l x.length && s.role == .operator then
    ({ b with hp := { b.hp with window := some (patchBytes (b.hp.window.getD []) (l - Config.windowBase) x) } }, true)
  else match bulkRefusal b s c l x.length 0x50 with
    | some e => (bulkRefuse b id seq c e, false)
    | none => (retryReplay (bulkStore b l x), true)

/-- BULK_WRITE: session, HT.SEQ, BK.CONTEXT, BK.ADDR, data. -/
def cmdBulkWrite (id seq c l : Nat) (x : List Byte) (b : Block) : Block :=
  match tlook b.sessions id with
  | none => b
  | some s => settleAll (bulkWrite b s id seq c l x).1

/-- BULK_WRITE_SIGNAL: the data, then the increment of the counter word; a refusal of either writes nothing. -/
def cmdBulkSignal (id seq c l : Nat) (x : List Byte) (ctr : Nat) (inc : U64) (b : Block) : Block :=
  match tlook b.sessions id with
  | none => b
  | some s =>
    match bulkRefusal b s c (ctr / 8 * 8) 8 0x50 with
    | some e => bulkRefuse b id seq c e
    | none =>
      let r := bulkWrite b s id seq c l x
      if r.2 then
        let a := ctr / 8 * 8
        settleAll (updateMem (wakeStack r.1 a) a a 8 (addWord inc)).1
      else r.1

/-- The bytes of control space that a host read returns. [DEDUCED, log 78] -/
def hostCtlByte (b : Block) (l : Nat) : Byte := if derived b (l / 4 * 4) then 0 else ctlByte b l

/-- BULK_READ_REQUEST: read-data frames carry the HT.SEQ of the request. A read that meets an uncorrectable word delivers
zero bytes (R168, R268). [DEDUCED, log 77] -/
def cmdBulkRead (id seq c l n : Nat) (b : Block) : Block :=
  match tlook b.sessions id with
  | none => b
  | some s =>
    if 2 ^ 24 < n then bulkRefuse b id seq c 0x54
    else if isControl l && isControl (l + max n 1 - 1) && s.role == .operator then
      let d := (List.range n).map fun j => hostCtlByte b (l + j)
      streamUnit (latchReads b l n) id 4 c seq l d
    else match bulkRefusal b s c l n 0x51 with
      | some e => bulkRefuse b id seq c e
      | none =>
        let r := readOwn (wakeStack b l) l n
        match r.1.2 with
        | none => streamUnit r.1.1 id 4 c seq l r.2
        | some e => streamUnit (memFault r.1.1 e) id 4 c seq l (List.replicate n 0)

end Sys2Proof.Machine
end

