-- ==== Sys2Proof/Machine/Power.lean ====
section
/-!
DEFINITION. Power, input, temperature and resets (R471 to R478, R485 to R489, R520) and the itinerary (R479 to R483).
-/
namespace Sys2Proof.Machine

def setPw (b : Block) (f : Power → Power) : Block := { b with pw := f b.pw }

/-- Record the outcome of step k (R480): code, mode, attempts, detail. Any outcome but 1 sets PWR_ALERT.ITIN. -/
def outcome (k code mode attempts detail : Nat) (b : Block) : Block :=
  let i := tget b.pw.itin {} k
  setPw b fun p => { p with
    itin := tput p.itin {} k { i with
      now := BitVec.ofNat 3 code, mode := BitVec.ofNat 2 mode, attempts := BitVec.ofNat 8 attempts,
      detail := BitVec.ofNat 16 detail }
    alert := if code = 1 then p.alert else p.alert ||| 16 }

/-- A start begins: the outcomes become those of the previous start, or are erased. [DEDUCED, log 87] -/
def beginItin (b : Block) : Block :=
  setPw b fun p =>
    let p1 := if p.clearItin then { p with recSlow := 0, recNoStack := 0, recNoBus := 0, itin := [] } else p
    { p1 with clearItin := false, itin := p1.itin.map fun e => (e.1, { prev := e.2.now }) }

/-- A start stops: FAULT_L. -/
def stopStart (b : Block) : Block := setPw b fun p => { p with phase := .stopped, faultL := true }

/-! ### What a stop or a reset leaves -/

/-- Bytes that outlive a reset with RETAIN: those of retained pages in the stacks. -/
def keptByte (b : Block) (key : Nat) : Bool := decide (key < 0xC000000000) && (tlook b.pages (pageOf key)).isSome

/-- The root's state after a loss of everything volatile: N := C (R457). -/
def vyRestart (v : Vyano) (retained : Tbl (List Nat × List Byte × BitVec 48)) : Vyano :=
  { v with
    next := v.ceil, keyReady := false, exhausted := decide (2 ^ 40 ≤ v.ceil), signs := 0, nvWrites := 0,
    fwMemKey := [], agreeFail := 0, ctxKeys := 0, svn := 0, fwDigest := [], retained := retained }

/-- The Knasta controller's registers at reset, with what the cells and flash hold. [DEDUCED, log 85] -/
def pwRestart (p : Power) : Power :=
  { p with
    pinRetain := false, cap := 4800, capLevel := 0, alert := 0, hot := 0, regionPll := [], resetCtx := none,
    therm := 0, capMs := 0, recovering := false, trip := false, pin := 0, marks := p.marks }

/-- The registers at reset values; what non-volatile cells, flash, fuses and the manufacture of the module give; the
model's own counters. -/
def bare (b : Block) : Block :=
  { vy := vyRestart b.vy []
    pw := pwRestart b.pw
    ft := { recs := b.ft.recs, nextRec := b.ft.nextRec, pkgs := b.ft.pkgs, runNo := b.ft.runNo }
    chip := { stepping := b.chip.stepping, policy := if b.pw.recovery then 4 else 0 }
    hp := { mac := b.hp.mac, lastCtr := BitVec.ofNat 64 (b.vy.ctrCeil - 1) }
    egress := b.egress, opNext := b.opNext, freeCtr := b.freeCtr }

/-- Module state lost with power (R476, R489): content, contexts, sessions and retirements too.
[DESIGN CHOICE, log 7; DEDUCED, log 85] -/
def powerOff (b : Block) (stop : BitVec 4) : Block :=
  setPw (bare b) fun p => { p with phase := .standby, stop := stop, retiredIn := [] }

/-- Retained contexts (R487): the pages, key and step of every resident context. [DEDUCED, log 86] -/
def retainedOf (b : Block) : Tbl (List Nat × List Byte × BitVec 48) :=
  b.ctxs.foldl (fun t e =>
    let ps := (b.pages.filter fun q => q.2 == e.1 || q.2 == saveOwner e.1).map Prod.fst
    tins t e.1 (ps, e.2.memKey, e.2.step)) b.vy.retained

/-- Module state after a module reset's first three steps (R485, R486): retirements stay; with RETAIN the stacks keep
their training and the retained pages their content. [DEDUCED, log 85; DEDUCED, log 86] -/
def resetBlock (b : Block) (retain : Bool) : Block :=
  let x := bare b
  let g := b.geo
  let hw : Tbl TileHw := (b.tiles.filter fun e => e.2.faulted || e.2.retire).map fun e =>
    (e.1, { faulted := e.2.faulted, retire := e.2.retire })
  let g0 : Geo := { generation := g.generation, own := g.own, regions := g.regions, derricks := g.derricks, tiles := g.tiles }
  let g1 : Geo := if retain then { g0 with stackMask := g.stackMask, stackSlow := g.stackSlow, capBuses := g.capBuses } else g0
  let x1 := { x with
    geo := if g1 = g then g else { g1 with generation := g.generation + 2 }
    tiles := hw, ft := { x.ft with retired := b.ft.retired } }
  if retain then
    let lost := (b.pages.filter fun e => !decide (e.1 * pageBytes < 0xC000000000)).map Prod.fst
    { x1 with
      vy := vyRestart b.vy (retainedOf b), pages := b.pages
      mem := b.mem.filter fun e => keptByte b e.1, memErr := b.memErr.filter fun e => keptByte b (e.1 * 16)
      stale := lost.foldl (fun t p => tins t p b.freeCtr) (b.stale.filter fun e => keptByte b (e.1 * pageBytes))
      freeCtr := b.freeCtr + 1
      mcs := b.mcs.map fun e => (e.1, { stack := e.2.stack, spare := e.2.spare, laneSpared := e.2.laneSpared,
                                        selfRefresh := true }) }
  else x1

/-! ### The itinerary (R479) -/

/-- Step 2 NVREAD: cells, GA, the root's tests. [DESIGN CHOICE, log 108] -/
def nvRead (io : ItinIn) (b : Block) : Block :=
  let b1 := { b with vy := { b.vy with rngFault := !io.rootOk } }
  outcome 2 (if !io.rootOk then 3 else if io.cellsOk then 1 else 2) (if io.cellsOk then 0 else 1) 1 0
    (setPw b1 fun p => { p with ga := io.ga, faultL := p.faultL || !io.rootOk })

/-- Step 3 FWVERIFY: the flash image, else the one that network recovery fetches; whether the start goes on. -/
def fwVerify (io : ItinIn) (b : Block) : Block × Bool :=
  match imageRefusal b b.pw.flash with
  | none => (outcome 3 1 0 1 0 (acceptImage b b.pw.flash), true)
  | some _ =>
    if b.pw.recovery then
      match io.fetched with
      | some x => match imageRefusal b x with
        | none => (outcome 3 2 1 1 0 (acceptImage (setPw b fun p => { p with flash := x, recovering := false }) x), true)
        | some _ => (stopStart (outcome 3 4 1 1 0 (setPw b fun p => { p with recovering := true })), false)
      | none => (stopStart (outcome 3 4 1 1 0 (setPw b fun p => { p with recovering := true })), false)
    else (stopStart (outcome 3 4 0 1 0 b), false)

/-- Channels of stack k marked for sparing by SPARE_OVERRIDE. -/
def markedChannels (b : Block) (k : Nat) : List Nat :=
  (b.pw.marks.filter fun x => x / 2 ^ 24 == 1 && x / 2 ^ 16 % 256 == k).map (· % 2 ^ 16)

/-- Failing lanes of channel or bus ch, each once. -/
def badLanes (l : List (Nat × Nat)) (ch : Nat) : List Nat := ((l.filter fun x => x.1 == ch).map Prod.snd).dedup

/-- A channel with two or more failing lanes, or a failing clock or command lane, is retired (R272). -/
def laneRetires (l : List (Nat × Nat)) (ch : Nat) : Bool :=
  decide (2 ≤ (badLanes l ch).length) || (badLanes l ch).any fun x => decide (19 ≤ x)

/-- A channel whose one failing lane carries data or check bits uses its spare lane (R272). -/
def laneSpares (l : List (Nat × Nat)) (ch : Nat) : Bool :=
  !laneRetires l ch && (badLanes l ch).any fun x => decide (x < 18)

/-- Channels that a training retires: by their lanes, and by SPARE_OVERRIDE. -/
def retiredChans (l : List (Nat × Nat)) (marks : List Nat) : List Nat :=
  (List.range 132).filter fun ch => laneRetires l ch || marks.contains ch

/-- MC_SPARE: retired logical channels in ascending order take the spare channels in ascending order; a spare channel that
is retired itself serves none (R272). [DESIGN CHOICE, log 101] -/
def spareWord (l : List Nat) : U32 :=
  let good := [128, 129, 130, 131].filter fun ch => !l.contains ch
  let pairs := good.zip (l.filter fun ch => decide (ch < 128))
  BitVec.ofNat 32 (sumOf ((List.range 4).map fun j =>
    (match pairs.find? fun p => p.1 == 128 + j with | some p => p.2 | none => 0xFF) * 256 ^ j))

/-- Stack k as a training leaves it that passed at a rate, with these failing lanes. -/
def trained (m : Mc) (rate : BitVec 2) (l : List (Nat × Nat)) (marks : List Nat) : Mc :=
  { m with
    stack := rate, spare := spareWord (retiredChans l marks)
    laneSpared := BitVec.ofNat 8 ((List.range 132).filter fun ch => laneSpares l ch && !marks.contains ch).length }

/-- Train stack k: rate 1 full, 2 reduced, 0 absent; whether the record skipped it. The stack passes when at most 4 channels
are retired (R272). -/
def trainStack (io : ItinIn) (b : Block) (k : Nat) : Block :=
  let t := io.training.getD k ⟨[], []⟩
  let marks := markedChannels b k
  let m := mcOf b k
  if b.pw.recNoStack.getLsbD k then setMc b k { m with stack := 0 }
  else if (retiredChans t.bad12 marks).length ≤ 4 && !b.pw.recSlow.getLsbD k then setMc b k (trained m 1 t.bad12 marks)
  else if (retiredChans t.bad8 marks).length ≤ 4 then setMc b k (trained m 2 t.bad8 marks)
  else setMc b k { m with stack := 0 }

/-- A bus whose one failing pin its spare pin replaces is present; one with more failing pins is absent (R285). -/
def busPasses (l : List (Nat × Nat)) (bus : Nat) : Bool :=
  decide ((badLanes l bus).length ≤ 1) && (badLanes l bus).all fun x => decide (x < 145)

def maskOf16 (p : Nat → Bool) : BitVec 16 :=
  (List.range 16).foldl (fun m k => if p k then m ||| (1#16 <<< k) else m) 0

def maskOf12 (p : Nat → Bool) : BitVec 12 :=
  (List.range 12).foldl (fun m k => if p k then m ||| (1#12 <<< k) else m) 0

/-- Step 4 MEMORY: stacks and buses. -/
def memoryStep (io : ItinIn) (b : Block) : Block :=
  let b1 := (List.range 12).foldl (trainStack io) b
  let skipped := b.pw.recNoStack != 0 || b.pw.recNoBus != 0
  let full := maskOf12 fun k => (mcOf b1 k).stack == 1
  let slow := maskOf12 fun k => (mcOf b1 k).stack == 2
  let gone := ~~~ (full ||| slow)
  let buses := maskOf16 (busPasses io.pins) &&& ~~~ b.pw.recNoBus
  let fresh := (gone &&& ~~~ b.pw.recNoStack) != 0 || (~~~ buses &&& ~~~ b.pw.recNoBus) != 0
  let code := if fresh then 3 else if slow != 0 then 2 else if skipped then 5 else 1
  let b2 := geoChange b1 fun g => { g with stackMask := full ||| slow, stackSlow := slow, capBuses := buses }
  outcome 4 code (if skipped then 2 else if slow = 0 then 0 else 1) (if slow = 0 then 1 else 2) (~~~ full).toNat
    (setPw b2 fun p => { p with recSlow := slow, recNoStack := gone, recNoBus := ~~~ buses })

/-- Step 5 LINKS: every link looks for signal; the stored table, or GA[5:0] and the cabling rule alone (R482). Links go
on training after the step. [DEDUCED, log 84] -/
def linksStep (b : Block) : Block :=
  let b1 := (List.range 32).foldl (fun z k => setLink z k { linkOf z k with st := 1 }) b
  let dl := (List.range 8).map fun d => BitVec.ofNat 32 (15 * 16 ^ d)
  let b2 := geoChange b1 fun g => { g with dirLinks := dl }
  let b3 := if b.pw.stored.isEmpty then geoChange b2 fun g => { g with own := b.pw.ga.setWidth 15 }
    else applyTable (geoChange b2 fun g => { g with own := b.pw.storedOwn }) (readTable b.pw.stored)
  outcome 5 3 0 1 32 b3

/-- Step 6 SELFTEST: 4 spares serve a region's failing tiles, further ones leave it (R15). It runs package 0 as a run of
trigger code 4, whose failures make records (R499, R504). [DEDUCED, log 76] -/
def selfTest (io : ItinIn) (b : Block) : Block :=
  let bad (k : Nat) : Nat := io.tiles.getD k 0
  let n := sumOf ((List.range 12).map bad)
  let b0 := geoChange b fun g => { g with
    tiles := (List.range 12).map (fun k => if io.regions.getLsbD k then 96 - (bad k - 4) else 0),
    derricks := io.derricks &&& io.regions, regions := io.regions }
  let b1 := { b0 with
    ft := { b0.ft with retired := BitVec.ofNat 32 n, runNo := b0.ft.runNo + 1, runs := satAdd b0.ft.runs 1 }
    pw := { b0.pw with retiredIn := (List.range 12).foldl (fun t k => tput t 0 k (bad k)) b0.pw.retiredIn } }
  outcome 6 (if n = 0 ∧ io.regions = 0xFFF ∧ io.derricks = 0xFFF then 1 else 3) 0 1 n (io.fails.foldl (boreRecord 4) b1)

/-- Step 7 ETHERNET. -/
def etherStep (io : ItinIn) (b : Block) : Block :=
  let b1 := ethernetChange io.ether b
  outcome 7 (if 2 ≤ b1.hp.link.toNat then 1 else 3) 0 1 0 b1

/-- The root generates the firmware memory key (R466). -/
def makeFwKey (b : Block) : Block :=
  let d := draw b 64
  { d.2 with vy := { d.2.vy with fwMemKey := d.1, keyReady := true } }

/-- Step 8 KEYS, and the module is up: FAULT_L is released unless a root condition holds. -/
def keysStep (io : ItinIn) (b : Block) : Block :=
  let ok := canKey b
  let b1 := outcome 8 (if ok then 1 else 3) 0 1 0 (if ok then makeFwKey b else { b with vy := { b.vy with keyReady := false } })
  setPw b1 fun p => { p with phase := .up, itinTime := io.ms, faultL := b1.vy.rngFault || b1.vy.exhausted || !ok }

/-- Steps 4 to 8, without those that the kind of start skips: 0 cold, 1 module reset, 2 module reset with RETAIN. -/
def lateSteps (io : ItinIn) (b : Block) : Block :=
  let b4 := if b.pw.start = 2 then b else memoryStep io b
  let b5 := linksStep b4
  let b6 := if b.pw.start = 0 then selfTest io b5 else b5
  keysStep io (etherStep io b6)

/-- Steps 3 to 8. -/
def fromVerify (io : ItinIn) (b : Block) : Block :=
  let r := fwVerify io b
  if r.2 then lateSteps io r.1 else r.1

/-- Steps 2 to 8. -/
def fromRead (io : ItinIn) (b : Block) : Block := fromVerify io (nvRead io b)

/-- COLD_START (R479): the eight steps from the rails on. [DESIGN CHOICE, log 3; DEDUCED, log 87] -/
def coldStart (io : ItinIn) (b : Block) : Block :=
  if b.pw.phase = .starting then
    let b1 := beginItin (setPw (bare b) fun p => { p with start := 0, starts := p.starts + 1, retiredIn := [] })
    if !io.railsOk then stopStart (outcome 0 4 0 1 0 b1)
    else
      let b2 := outcome 0 1 0 1 0 b1
      if !io.refOk then stopStart (outcome 1 4 0 1 0 b2) else fromRead io (outcome 1 1 0 1 0 b2)
  else b

/-- MODULE_RESET (R486): once one has begun. -/
def moduleReset (io : ItinIn) (b : Block) : Block :=
  match b.pw.phase with
  | .resetting retain =>
    fromRead io (beginItin (setPw (resetBlock b retain) fun p =>
      { p with phase := .starting, start := if retain then 2 else 1, starts := p.starts + 1 }))
  | _ => b

/-- NETWORK_RECOVERY_RETRY (R481): the itinerary goes on at step 3 with what the retry fetches. -/
def recoveryRetry (io : ItinIn) (b : Block) : Block :=
  if b.pw.phase = .stopped ∧ b.pw.recovering = true ∧ b.pw.pwrEn = true then fromVerify io b else b

/-! ### Discrete signals (R474 to R476, R520) -/

/-- The input stands at or above the start threshold of R471: 40 V at most, in units of 10 mV. [DEDUCED, log 88] -/
def inputGood (p : Power) : Bool := decide (4000 ≤ p.vin.toNat)

/-- PWR_EN_RISE. -/
def pwrEnRise (b : Block) : Block :=
  setPw b fun p =>
    { p with pwrEn := true, phase := if p.phase = .standby ∧ inputGood p = true then .starting else p.phase }

/-- The orderly stop of R476: contexts halt, requests end ABANDONED, the rails go off. -/
def orderlyStop (b : Block) (cause : BitVec 4) : Block :=
  let b1 := (b.ctxs.map Prod.fst).foldl (fun z c => haltCtx z c .haltedFault) b
  powerOff (abandon b1 fun _ => true) cause

/-- PWR_EN_FALL; a falling RST_L of the same sample is ignored (R520). -/
def pwrEnFall (b : Block) : Block :=
  let b1 := setPw b fun p => { p with pwrEn := false }
  if b.pw.phase = .standby then b1 else orderlyStop b1 1

/-- In Idle or above (R475). -/
def aboveStandby : PowerPhase → Bool
  | .up => true
  | .resetting _ => true
  | .standby => false
  | .starting => false
  | .stopped => false

/-- RST_L_ASSERT: in Idle or above, with PWR_EN high. -/
def rstAssert (b : Block) : Block :=
  if aboveStandby b.pw.phase && b.pw.pwrEn then setPw b fun p => { p with phase := .resetting p.pinRetain } else b

/-- CONTEXT_RESET: the reset of a context that RESET named (R485, R488). -/
def contextReset (c : Nat) (b : Block) : Block :=
  if b.pw.resetCtx = some c then resetCtx (setPw b fun p => { p with resetCtx := none }) c else b

/-! ### The input (R472, R473, R489) -/

/-- INPUT_SAMPLE: the input in units of 10 mV; two samples that agree set the alerts. A module in Standby with PWR_EN
high starts when the input reaches the threshold, unless a power-loss sequence left it there (R475, R489, R520).
[DEDUCED, log 88] -/
def inputSample (v : U16) (b : Block) : Block :=
  setPw b fun p =>
    let q := { p with vin := v, lastVin := p.vin.toNat }
    let go := p.phase = .standby ∧ p.pwrEn = true ∧ inputGood p = false ∧ inputGood q = true ∧ p.stop ≠ 2 ∧ p.stop ≠ 3
    { q with alert := q.alert ||| (heldAlerts q &&& 3), phase := if go then .starting else q.phase }

/-- UNDERVOLTAGE_LOCKOUT: the power-loss sequence with cause 2. -/
def undervoltage (b : Block) : Block := powerOff (setPw b fun p => { p with uvlo := satAdd p.uvlo 1 }) 2

/-- OVERVOLTAGE_TRIP: the same sequence with cause 3, and FAULT_L. -/
def overvoltage (b : Block) : Block :=
  setPw (powerOff (setPw b fun p => { p with ov := satAdd p.ov 1 }) 3) fun p => { p with faultL := true, trip := true }

/-- INPUT_RECOVERY_START: the input has been good for 100 ms with PWR_EN high. [DEDUCED, log 88] -/
def inputRecovery (b : Block) : Block :=
  if b.pw.phase = .standby ∧ b.pw.pwrEn = true ∧ inputGood b.pw = true then setPw b fun p => { p with phase := .starting }
  else b

/-- POWER_CAP_WINDOW: the mean input power of the last 1 ms, in W. -/
def capWindow (w : U16) (b : Block) : Block :=
  setPw b fun p =>
    let l := if p.cap.toNat < w.toNat then min 3 (p.capLevel + 1) else p.capLevel - 1
    { p with
      pin := w, capLevel := l, capMs := satAdd p.capMs (if p.capLevel = 0 then 0 else 1),
      alert := if l = 0 then p.alert else p.alert ||| 4 }

/-! ### Temperature and reference (R477, R478) -/

/-- THERMAL_CRITICAL_PERSIST: a critical condition has lasted 10 ms; the running context is drained. -/
def thermalPersist (b : Block) : Block :=
  match b.running with
  | some _ => if b.pw.hot = 0 then b else { b with draining := true }
  | none => b

/-- PACKAGE_THERMAL_ALERT. -/
def packageAlert (b : Block) : Block := setPw b fun p => { p with alert := p.alert ||| 8 }

/-- PACKAGE_THERMAL_TRIP: the running context is lost, no other goes on, the module falls to Idle. [DEDUCED, log 85] -/
def packageTrip (b : Block) : Block :=
  let b1 := match b.running with | some c => destroyCtx b c | none => b
  let b2 := { b1 with ctxs := b1.ctxs.map fun e => (e.1, if e.2.st = .runnable then { e.2 with st := .drained } else e.2) }
  let b3 := (List.range 12).foldl (fun z k =>
    if z.geo.stackMask.getLsbD k then setMc z k { mcOf z k with selfRefresh := true } else z) b2
  setPw b3 fun p => { p with
    regionPll := [], stop := 4, therm := satAdd p.therm 1, faultL := true, trip := true, alert := p.alert ||| 8 }

/-- REFERENCE_LOST: the orderly stop with cause 5; PWR_ALERT.REF. -/
def referenceLost (b : Block) : Block := setPw (orderlyStop b 5) fun p => { p with alert := p.alert ||| 32 }

end Sys2Proof.Machine
end

