-- ==== Sys2Proof/Machine/State.lean ====
section
/-!
DEFINITION. The machine's state: the commands that wait, first in, first out, and the block they act on. Every piece of
state that the specification names is a field of the block or of a part of it.
-/
namespace Sys2Proof.Machine

/-- Plain data: the queue of waiting commands, and the module. -/
structure State where
  pending : List Instr := []
  blk : Block := {}
deriving DecidableEq, Repr

/-- Why a command would stop the machine: no command does. The specification gives every row an effect, or says that it
is ignored, refused with a status, or counted. -/
inductive Fault where
deriving DecidableEq, Repr

/-- Why a command is refused. -/
inductive Refusal where
  /-- the command has no meaning in the model: raised by an arm of `exec` alone; safe, since nothing is said to happen -/
  | notModelled (mnemonic : String)
deriving DecidableEq, Repr

/-- The module in Standby, as it is manufactured: every register at its reset value, memory with nothing listed, flash
empty. Authority slot 0 is valid in both roles (log 10).
[DESIGN CHOICE, log 3; DESIGN CHOICE, log 9; DESIGN CHOICE, log 10] -/
def State.reset : State :=
  { pending := [], blk := { vy := { slotValid := 1, slotFw := 1, slotDev := 1 } } }

end Sys2Proof.Machine
end

