-- ==== Sys2Proof/Machine/Act.lean ====
section
/-!
DEFINITION. How a command acts: in which power states, and what follows it (R23, R467, R475).
-/
namespace Sys2Proof.Machine

abbrev Out3 := Host.Outcome State Fault Refusal

/-- The command's effect, then what follows every command. [DEDUCED, log 6] -/
def act (f : Block → Block) (s : State) : Out3 := .next { s with blk := after s.blk (f s.blk) }

/-- A command of a part whose clocks run in Idle and above: in the other power states nothing happens.
[DEDUCED, log 6] -/
def actUp (f : Block → Block) (s : State) : Out3 := act (fun b => if aboveStandby b.pw.phase then f b else b) s

/-- A command of a part whose rails are on: in Standby nothing happens. [DEDUCED, log 6] -/
def actPowered (f : Block → Block) (s : State) : Out3 := act (fun b => if b.pw.phase = .standby then b else f b) s

end Sys2Proof.Machine
end

