-- ==== Sys2Proof/Machine/ExecFabric.lean ====
section
/-!
DEFINITION. The meaning of each command of the fabric, the links and the memory controllers.
-/
namespace Sys2Proof.Machine

/-- REQUEST_ARRIVAL (R293). -/
def execRequestArrival (r : Request) (s : State) : Out3 := actUp (requestArrival r) s

/-- RESPONSE_ARRIVAL (R295). -/
def execResponseArrival (r : Response) (s : State) : Out3 := actUp (responseArrival r) s

/-- REQUEST_TIMEOUT (R297). -/
def execRequestTimeout (t : BitVec 16) (s : State) : Out3 := actUp (requestTimeout t.toNat) s

/-- TAG_QUARANTINE_END (R297). -/
def execTagQuarantineEnd (t : BitVec 16) (s : State) : Out3 := actUp (quarantineEnd t.toNat) s

/-- FLIT_RECEIVE (R309). -/
def execFlitReceive (k : Fin 32) (lanes : List (List (BitVec 2))) (s : State) : Out3 :=
  actUp (flitReceive k.val lanes) s

/-- LINK_CONTROL_FLIT (R308). -/
def execLinkControlFlit (k : Fin 32) (ack : U64) (nak : Option U64) (flags : Byte) (credits : List Nat) (s : State) : Out3 :=
  actUp (linkControlFlit k.val ack.toNat (nak.map BitVec.toNat) flags.toNat credits) s

/-- LINK_CONTROL_INTERVAL (R308). -/
def execLinkControlInterval (k : Fin 32) (s : State) : Out3 := actUp (linkControlInterval k.val) s

/-- FLIT_SWITCH_DISCARD (R311). -/
def execFlitSwitchDiscard (k : Fin 32) (j : Nat) (s : State) : Out3 := actUp (switchDiscard k.val j) s

/-- LINK_RETRAIN (R310). -/
def execLinkRetrain (k : Fin 32) (cause : Nat) (s : State) : Out3 := actUp (linkRetrain k.val cause) s

/-- LINK_DETECT (R313). -/
def execLinkDetect (k : Fin 32) (lanes : LinkSignal) (s : State) : Out3 := actUp (linkDetect k.val lanes) s

/-- LINK_EQUALIZE (R313). -/
def execLinkEqualize (k : Fin 32) (s : State) : Out3 := actUp (linkEqualize k.val) s

/-- LINK_TEST (R315). -/
def execLinkTest (k : Fin 32) (errs : List Nat) (s : State) : Out3 := actUp (linkTest k.val errs) s

/-- LINK_ALIGN (R313). -/
def execLinkAlign (k : Fin 32) (s : State) : Out3 := actUp (linkAlign k.val) s

/-- LINK_IDENT (R312). -/
def execLinkIdent (k : Fin 32) (peer : BitVec 15) (coord : U32) (dir : BitVec 3) (index : BitVec 2) (s : State) : Out3 :=
  actUp (linkIdent k.val peer coord dir.toNat index.toNat) s

/-- LINK_KEY (R465). -/
def execLinkKey (k : Fin 32) (p : KeyPeer) (s : State) : Out3 := actUp (linkKey k.val p) s

/-- LINK_NARROW (R316). -/
def execLinkNarrow (k : Fin 32) (s : State) : Out3 := actUp (linkNarrow k.val) s

/-- LINK_WIDEN (R316). -/
def execLinkWiden (k : Fin 32) (s : State) : Out3 := actUp (linkWiden k.val) s

/-- REMAP_REDRAW (R349). -/
def execRemapRedraw (s : State) : Out3 := actUp remapRedraw s

/-- MC_SCRUB (R269). -/
def execMcScrub (k : Fin 13) (s : State) : Out3 := actUp (mcScrub k.val) s

/-- TILE_SCRUB (R105). -/
def execTileScrub (t : Fin 1152) (s : State) : Out3 := actUp (tileScrub t.val) s

/-- SELF_REFRESH_ENTRY (R283). -/
def execSelfRefreshEntry (k : Fin 12) (s : State) : Out3 := actUp (selfRefreshEntry k.val) s

/-- SELF_REFRESH_EXIT (R283). -/
def execSelfRefreshExit (k : Fin 12) (s : State) : Out3 := actUp (selfRefreshExit k.val) s

/-- TEMPERATURE_BAND_REPORT (R282). -/
def execTemperatureBandReport (k : Fin 12) (band : BitVec 3) (s : State) : Out3 := actUp (bandReport k.val band) s

/-- THROTTLE_RELAX (R282). -/
def execThrottleRelax (k : Fin 12) (s : State) : Out3 := actUp (throttleRelax k.val) s

/-- REGION_PLL_LOCK (R478). -/
def execRegionPllLock (k : Fin 12) (s : State) : Out3 := actUp (pllLock k.val) s

/-- REGION_PLL_LOCK_LOSS (R478). -/
def execRegionPllLockLoss (k : Fin 12) (s : State) : Out3 := actUp (pllLoss k.val) s

/-- SVU_POWER_DOWN (R119). -/
def execSvuPowerDown (t : Fin 1152) (s : State) : Out3 := actUp (svuPowerDown t.val) s

end Sys2Proof.Machine
end

