-- ==== Sys2Proof/Machine/ExecHost.lean ====
section
/-!
DEFINITION. The meaning of each command of the host port, host commands and bulk frames.
-/
namespace Sys2Proof.Machine

/-- HOST_FRAME_RECEIVE (R422). -/
def execHostFrameReceive (frame : List Byte) (second : Nat) (target : BitVec 15) (s : State) : Out3 :=
  actUp (hostFrameReceive frame second target.toNat) s

/-- HOST_RESEND_TIMER (R430). -/
def execHostResendTimer (id : Nat) (ch : Fin 3) (s : State) : Out3 := actUp (hostResend id ch.val) s

/-- HOST_ACK_TIMER (R430). -/
def execHostAckTimer (id : Nat) (ch : Fin 3) (s : State) : Out3 := actUp (hostAck id ch.val) s

/-- SESSION_INACTIVITY (R423). -/
def execSessionInactivity (id : Nat) (s : State) : Out3 := actUp (sessionInactivity id) s

/-- HELLO (R461). -/
def execHello (role : Nat) (body : List Byte) (s : State) : Out3 := actUp (hello role body) s

/-- ENCAP (R462). -/
def execEncap (session : Nat) (body : List Byte) (s : State) : Out3 := actUp (encap session body) s

/-- AGREEMENT_TIMEOUT (R461). -/
def execAgreementTimeout (session : Nat) (s : State) : Out3 := actUp (agreementTimeout session) s

/-- ARP_REQUEST (R419). -/
def execArpRequest (mac : BitVec 48) (ip : BitVec 32) (want : BitVec 32) (s : State) : Out3 :=
  actUp (arpRequest mac ip want) s

/-- NEIGHBOUR_SOLICITATION (R419). -/
def execNeighbourSolicitation (mac : BitVec 48) (ip : BitVec 128) (want : BitVec 128) (s : State) : Out3 :=
  actUp (neighbourSolicitation mac ip want) s

/-- ECHO_REQUEST (R419). -/
def execEchoRequest (v6 : Bool) (mac : BitVec 48) (ip : BitVec 128) (want : BitVec 128) (x : List Byte) (s : State) : Out3 :=
  actUp (echoRequest v6 mac ip want x) s

/-- STATUS (R425). -/
def execStatus (h : Cmd) (s : State) : Out3 := actUp (cmdStatus h) s

/-- IDENTITY (R460). -/
def execIdentity (h : Cmd) (s : State) : Out3 := actUp (cmdIdentity h) s

/-- SESSION_CLOSE (R423). -/
def execSessionClose (h : Cmd) (s : State) : Out3 := actUp (cmdSessionClose h) s

/-- REG_READ (R425). -/
def execRegRead (h : Cmd) (s : State) : Out3 := actUp (cmdRegRead h) s

/-- REG_WRITE (R425). -/
def execRegWrite (h : Cmd) (s : State) : Out3 := actUp (cmdRegWrite h) s

/-- CTX_CREATE (R426). -/
def execCtxCreate (h : Cmd) (s : State) : Out3 := actUp (cmdCtxCreate h) s

/-- CTX_DESTROY (R427). -/
def execCtxDestroy (h : Cmd) (s : State) : Out3 := actUp (cmdCtxDestroy h) s

/-- CTX_RUN (R533). -/
def execCtxRun (h : Cmd) (s : State) : Out3 := actUp (cmdCtxRun h) s

/-- CTX_DRAIN (R160). -/
def execCtxDrain (h : Cmd) (s : State) : Out3 := actUp (cmdCtxDrain h) s

/-- CHECKPOINT (R402). -/
def execCheckpoint (h : Cmd) (s : State) : Out3 := actUp (cmdCheckpoint h) s

/-- RESUME (R533). -/
def execResume (h : Cmd) (s : State) : Out3 := actUp (cmdResume h) s

/-- STREAM_ATTACH (R425). -/
def execStreamAttach (h : Cmd) (s : State) : Out3 := actUp (cmdStreamAttach h) s

/-- PROGRAM_LOAD (R533). -/
def execProgramLoad (h : Cmd) (s : State) : Out3 := actUp (cmdProgramLoad h) s

/-- KEY_LOAD_BIND_OWNER (R468). -/
def execKeyLoadBindOwner (h : Cmd) (s : State) : Out3 := actUp (cmdBindOwner h) s

/-- KEY_LOAD_ENROL_OPERATOR (R464). -/
def execKeyLoadEnrolOperator (h : Cmd) (s : State) : Out3 := actUp (cmdEnrol h) s

/-- KEY_LOAD_REMOVE_OPERATOR (R464). -/
def execKeyLoadRemoveOperator (h : Cmd) (s : State) : Out3 := actUp (cmdRemove h) s

/-- FIRMWARE_LOAD (R459). -/
def execFirmwareLoad (h : Cmd) (s : State) : Out3 := actUp (cmdFirmwareLoad h) s

/-- LOCK (R446). -/
def execLock (h : Cmd) (s : State) : Out3 := actUp (cmdLock h) s

/-- DEBUG (R510). -/
def execDebug (h : Cmd) (s : State) : Out3 := actUp (cmdDebug h) s

/-- RESET (R485). -/
def execReset (h : Cmd) (s : State) : Out3 := actUp (cmdReset h) s

/-- FLEET_TEST_RUN (R501). -/
def execFleetTestRun (h : Cmd) (s : State) : Out3 := actUp (cmdFleetRun h) s

/-- FLEET_TEST_REMOVE (R499). -/
def execFleetTestRemove (h : Cmd) (s : State) : Out3 := actUp (cmdFleetRemove h) s

/-- SIGNATURES_READ (R508). -/
def execSignaturesRead (h : Cmd) (s : State) : Out3 := actUp (cmdSignaturesRead h) s

/-- SIGNATURES_ACK (R508). -/
def execSignaturesAck (h : Cmd) (s : State) : Out3 := actUp (cmdSignaturesAck h) s

/-- SPARE_OVERRIDE (R425). -/
def execSpareOverride (h : Cmd) (s : State) : Out3 := actUp (cmdSpareOverride h) s

/-- TORUS_TABLE (R329). -/
def execTorusTable (h : Cmd) (s : State) : Out3 := actUp (cmdTorusTable h) s

/-- BULK_WRITE (R432). -/
def execBulkWrite (id : Nat) (seq : Nat) (c : Nat) (l : Nat) (x : List Byte) (s : State) : Out3 :=
  actUp (cmdBulkWrite id seq c l x) s

/-- BULK_WRITE_SIGNAL (R432). -/
def execBulkWriteSignal (id : Nat) (seq : Nat) (c : Nat) (l : Nat) (x : List Byte) (ctr : Nat) (inc : U64) (s : State) : Out3 :=
  actUp (cmdBulkSignal id seq c l x ctr inc) s

/-- BULK_READ_REQUEST (R432). -/
def execBulkReadRequest (id : Nat) (seq : Nat) (c : Nat) (l : Nat) (n : Nat) (s : State) : Out3 :=
  actUp (cmdBulkRead id seq c l n) s

end Sys2Proof.Machine
end

