-- ==== Sys2Proof/Machine/ExecHouse.lean ====
section
/-!
DEFINITION. The meaning of each command of houses.
-/
namespace Sys2Proof.Machine

/-- HOUSE_BEAT_TIMER (R354). -/
def execHouseBeatTimer (s : State) : Out3 := actUp beatTimer s

/-- HOUSE_MESSAGE_ARRIVAL (R353). -/
def execHouseMessageArrival (r : Request) (s : State) : Out3 := actUp (houseArrival r) s

/-- BEAT (R355). -/
def execBeat (m : BitVec 15) (s : State) : Out3 := actUp (beatEff m.toNat) s

/-- ALIVE (R354). -/
def execAlive (m : BitVec 15) (s : State) : Out3 := actUp (aliveEff m.toNat) s

/-- SUSPECT (R357). -/
def execSuspect (m : BitVec 15) (s : State) : Out3 := actUp (suspectEff m.toNat) s

/-- PROBE (R357). -/
def execProbe (m : BitVec 15) (s : State) : Out3 := actUp (probeEff m.toNat) s

/-- ECHO (R357). -/
def execEcho (m : BitVec 15) (s : State) : Out3 := actUp (echoEff m.toNat) s

/-- DEAD (R358). -/
def execDead (m : BitVec 15) (s : State) : Out3 := actUp (deadEff m.toNat) s

/-- PREPARE (R358). -/
def execPrepare (m : BitVec 15) (s : State) : Out3 := actUp (prepareEff m.toNat) s

/-- READY (R358). -/
def execReady (m : BitVec 15) (s : State) : Out3 := actUp (readyEff m.toNat) s

/-- COMMIT (R358). -/
def execCommit (m : BitVec 15) (s : State) : Out3 := actUp (commitEff m.toNat) s

/-- RELAY (R360). -/
def execRelay (m : BitVec 15) (second : Nat) (s : State) : Out3 := actUp (relayEff m.toNat second) s

/-- SIG (R508). -/
def execSig (m : BitVec 15) (s : State) : Out3 := actUp (sigEff m.toNat) s

/-- JOIN (R360). -/
def execJoin (m : BitVec 15) (s : State) : Out3 := actUp (joinEff m.toNat) s

/-- ADMIT (R360). -/
def execAdmit (m : BitVec 15) (s : State) : Out3 := actUp (fun b => settleAll (admitEff m.toNat b)) s

/-- MEMBER_SILENCE (R354). -/
def execMemberSilence (m : BitVec 15) (s : State) : Out3 := actUp (memberSilence m.toNat) s

/-- KEEPER_SILENCE (R355). -/
def execKeeperSilence (c : Nat) (s : State) : Out3 := actUp (keeperSilence c) s

/-- PROBE_TIMEOUT (R357). -/
def execProbeTimeout (m : BitVec 15) (s : State) : Out3 := actUp (probeTimeout m.toNat) s

/-- READY_TIMEOUT (R358). -/
def execReadyTimeout (m : BitVec 15) (s : State) : Out3 := actUp (readyTimeout m.toNat) s

/-- SUSPECT_REPORT (R357). -/
def execSuspectReport (c : Fin 16) (s : State) : Out3 := actUp (suspectReport c.val) s

end Sys2Proof.Machine
end

