-- ==== Sys2Proof/Machine/FaultTest.lean ====
section
/-!
DEFINITION. The end of a fleet test run (R501 to R507), lane checkers (R495), the test access port and the debug port
(R469, R509, R510).
-/
namespace Sys2Proof.Machine

/-! ### Fleet test runs -/

/-- A fault that a pattern raised is handled by its level as in service (R502): of the tile, of the Reckoner or the Derrick,
of the region for its engine and its stack; one of a capacity bus or a lane is counted where its words are met.
[DEDUCED, log 76] -/
def boreFault (b : Block) (f : BoreFail) : Block :=
  let kind := (f.unit.getD 0 0).toNat
  let k := (f.unit.getD 1 0).toNat
  if f.outcome ≠ 1 then b
  else if kind < 4 then
    let t := 96 * k + (f.unit.getD 2 0).toNat
    tileFault b t f.cause (f.unit.getD 3 0).toNat (liveImg b (.tile (Fin.ofNat 1152 t))).pc
  else if kind = 4 then rckFault b k f.cause
  else if kind = 5 then drkFault b k f.cause
  else if kind < 9 then regionFault b k f.cause
  else b

/-- A link that a run took down looks for signal again, unless LINK_CTRL.DISABLE holds it. [DEDUCED, log 90] -/
def runLinkUp (b : Block) (k : Nat) : Block :=
  if (linkOf b k).st = 11 ∧ (linkOf b k).disable = false then setLinkSt b k 1 else b

/-- R501: 0 passed, 1 failures found, 2 stopped at the time limit. [DEDUCED, log 90] -/
def runOutcome (fails : Nat) (limit : Bool) : Nat := if limit then 2 else if fails = 0 then 0 else 1

/-- BORE_RUN_END: the records are made, the links retrain, the tile state is back, and event 0x0A goes out.
[DEDUCED, log 76] -/
def boreRunEnd (fails : List BoreFail) (limit : Bool) (b : Block) : Block :=
  match b.ft.run with
  | none => b
  | some r =>
    let b1 := fails.foldl (fun z f => boreFault (boreRecord r.trigger z f) f) b
    let b2 := (linksOf r.sel.links).foldl runLinkUp
      { b1 with ft := { b1.ft with run := none, st := 0, pkg := 0, trigger := 0, runs := satAdd b1.ft.runs 1 } }
    sendEvent b2 { kind := 0x0A, ctx := 0xFF, body := [r.num, r.trigger, runOutcome fails.length limit, fails.length,
                                                       b2.ft.recs.length].map (BitVec.ofNat 64) }

/-! ### Lane checkers (R495) -/

/-- A PRBS checker of lane j runs: the link is down, a PRBS pattern is selected, the lane is enabled, and the module is
not in far loopback (R494). -/
def checking (b : Block) (k j : Nat) : Bool :=
  let l := linkOf b k
  laneIdle b k && decide (1 ≤ l.pattern.toNat ∧ l.pattern.toNat ≤ 3) && l.loop != 2 && l.lanes.getLsbD j

/-- LANE_LOCK_ACQUIRED. -/
def laneLocked (k j : Nat) (b : Block) : Block :=
  if checking b k j then setLink b k { linkOf b k with locked := (linkOf b k).locked ||| (1#9 <<< j) } else b

/-- LANE_LOCK_LOST: 16 differing bits within 64, which the checker has counted. [DEDUCED, log 91] -/
def laneUnlocked (k j : Nat) (b : Block) : Block :=
  let l := linkOf b k
  if checking b k j && l.locked.getLsbD j then
    setLink b k { l with
      locked := l.locked &&& ~~~ (1#9 <<< j), lost := l.lost ||| (1#9 <<< j),
      errs := tput l.errs 0 j (satAdd (tget l.errs 0 j) 16) }
  else b

/-! ### The test access port (R509) -/

/-- What an instruction code selects: a code that is not defined acts as BYPASS, and so does PRODTEST with the
production fuse blown. With a confidential context resident only BYPASS, IDCODE, EXTEST and the AC tests are left.
[DEDUCED, log 92] -/
def tapCode (b : Block) (code : Byte) : Byte :=
  let open_ : List Nat := [0x00, 0x01, 0x06, 0x07]
  let more : List Nat := [0x02, 0x04, 0x05, 0x20]
  if open_.contains code.toNat then code
  else if more.contains code.toNat && !b.ctxs.any (fun e => e.2.confidential) then code
  else 0xFF

/-- IDCODE: stepping, 0x0032, the manufacturer's 0x25A, 1. -/
def idcode (b : Block) : U32 := fld b.chip.stepping 28 ||| nfld 0x0032 12 ||| nfld 0x25A 1 ||| 1

/-- TEST_ACCESS_PORT: an instruction is selected; IDCODE shifts its 32 bits out. [DEDUCED, log 92] -/
def testAccess (code : Byte) (b : Block) : Block :=
  let t := tapCode b code
  let b1 := { b with ft := { b.ft with tap := t } }
  if t = 1 then { b1 with egress := b1.egress ++ [.scan (leBytes 4 (idcode b).toNat)] } else b1

/-! ### The debug port (R510) -/

/-- Connected by the DEBUG instruction, enabled by the DEBUG command, and no confidential context resident.
[DEDUCED, log 92] -/
def debugLive (b : Block) : Bool := b.ft.tap == 0x20 && b.chip.debugOn && !b.ctxs.any fun e => e.2.confidential

/-- Memory as firmware reaches it: a stack or tier address is its own key; a tile window is the running context's. -/
def firmwareKey (b : Block) (l : Nat) : Option Nat :=
  match spaceOf l with
  | .stack _ => if memPresent b l then some l else none
  | .tier => if memPresent b l then some l else none
  | .window t o => if tilePresent b t && decide (o < 0x180000) then b.running.map fun c => sramKey c t o else none
  | .control => none
  | .gap => none

def debugByte (b : Block) (l : Nat) : Byte := match firmwareKey b l with | some k => rdKey b k | none => 0

def debugStore (b : Block) (l : Nat) : List Byte → Block
  | [] => b
  | x :: r => debugStore (match firmwareKey b l with | some k => wrKey b k x | none => b) (l + 1) r

/-- [DEDUCED, log 92] -/
def debugHalt (u : UnitId) (x : Bool) (b : Block) : Block :=
  match u with
  | .tile t => tileHalt t.val x b
  | .derrick r => drkHalt r.val x b
  | .reckoner r => rckHalt r.val x b
  | .engine r =>
    let m := 1#12 <<< r.val
    let b1 := { b with chip := { b.chip with engHalt := if x then b.chip.engHalt ||| m else b.chip.engHalt &&& ~~~ m } }
    if x then b1 else settleAll b1

/-- DEBUG_PORT_ACCESS. [DEDUCED, log 92] -/
def debugAccess (d : DebugOp) (b : Block) : Block :=
  if debugLive b then
    match d with
    | .regRead l =>
      let b1 := latchLow b (l / 4 * 4)
      { b1 with egress := b1.egress ++ [.scan (leBytes 4 (ctlRead b (l / 4 * 4)).toNat)] }
    | .regWrite l v => regWrite l v b
    | .memRead l n => { b with egress := b.egress ++ [.scan ((List.range n).map fun j => debugByte b (l + j))] }
    | .memWrite l x => debugStore b l x
    | .halt u x => debugHalt u x b
    | .step u => if heldHalted b u then settleAll { b with chip := { b.chip with stepOnce := some u } } else b
  else b

end Sys2Proof.Machine
end

