-- ==== Sys2Proof/Machine/ExecModule.lean ====
section
/-!
DEFINITION. The meaning of each command of registers, power, resets, faults and test.
-/
namespace Sys2Proof.Machine

/-- TILE_CTRL_HALT (R130). -/
def execTileCtrlHalt (t : Fin 1152) (x : Bool) (s : State) : Out3 :=
  actUp (regWrite (ctlAddr (0x10000 + t.val) 8) (bitWrite 0 x)) s

/-- TILE_RESET (R130). -/
def execTileReset (t : Fin 1152) (s : State) : Out3 :=
  actUp (regWrite (ctlAddr (0x10000 + t.val) 8) (bitWrite 1 true)) s

/-- DRK_CTRL_HALT (R263). -/
def execDrkCtrlHalt (k : Fin 12) (x : Bool) (s : State) : Out3 :=
  actUp (regWrite (ctlAddr (0x103 + 16 * k.val) 8) (bitWrite 0 x)) s

/-- DRK_CTRL_RESET (R263). -/
def execDrkCtrlReset (k : Fin 12) (s : State) : Out3 :=
  actUp (regWrite (ctlAddr (0x103 + 16 * k.val) 8) (bitWrite 1 true)) s

/-- DRK_FORCE_WRITE (R263). -/
def execDrkForceWrite (k : Fin 12) (v : U32) (s : State) : Out3 :=
  actUp (regWrite (ctlAddr (0x103 + 16 * k.val) 0x10) v) s

/-- RCK_CTRL_HALT (R386). -/
def execRckCtrlHalt (k : Fin 12) (x : Bool) (s : State) : Out3 :=
  actUp (regWrite (ctlAddr (0x102 + 16 * k.val) 8) (bitWrite 0 x)) s

/-- MC_CTRL_FLUSH (R287). -/
def execMcCtrlFlush (k : Fin 12) (s : State) : Out3 :=
  actUp (regWrite (ctlAddr (0x101 + 16 * k.val) 8) (bitWrite 0 true)) s

/-- LINK_CTRL_DISABLE (R325). -/
def execLinkCtrlDisable (k : Fin 32) (x : Bool) (s : State) : Out3 :=
  actUp (regWrite (ctlAddr (0x80 + k.val) 8) (bitWrite 0 x)) s

/-- LINK_CTRL_RETRAIN (R325). -/
def execLinkCtrlRetrain (k : Fin 32) (s : State) : Out3 :=
  actUp (regWrite (ctlAddr (0x80 + k.val) 8) (bitWrite 1 true)) s

/-- LINK_CTRL_NARROW_EN (R325). -/
def execLinkCtrlNarrowEn (k : Fin 32) (x : Bool) (s : State) : Out3 :=
  actUp (regWrite (ctlAddr (0x80 + k.val) 8) (bitWrite 2 x)) s

/-- LANE_TEST_PATTERN (R494). -/
def execLaneTestPattern (k : Fin 32) (pattern : BitVec 3) (loop : BitVec 2) (lanes : BitVec 9) (s : State) : Out3 :=
  actUp (regWrite (ctlAddr (0x80 + k.val) 0x100) (laneTestWord pattern loop lanes)) s

/-- LANE_TEST_INJECT (R512). -/
def execLaneTestInject (k : Fin 32) (s : State) : Out3 :=
  actUp (regWrite (ctlAddr (0x80 + k.val) 0x100) (bitWrite 14 true)) s

/-- HP_CTRL_DISABLE (R436). -/
def execHpCtrlDisable (x : Bool) (s : State) : Out3 := actUp (regWrite (ctlAddr (0xC0) 4) (bitWrite 0 x)) s

/-- HP_CTRL_FORCE_800 (R417). -/
def execHpCtrlForce800 (x : Bool) (s : State) : Out3 := actUp (regWrite (ctlAddr (0xC0) 4) (bitWrite 1 x)) s

/-- HP_TEST_PATTERN (R513). -/
def execHpTestPattern (v : BitVec 12) (s : State) : Out3 := actUp (regWrite (ctlAddr 0xC0 0x100) (hpTestWord v)) s

/-- UPD_GO (R443). -/
def execUpdGo (n : Nat) (s : State) : Out3 := actUp (updGo n) s

/-- GROUP_STROBE (R443). -/
def execGroupStrobe (fire : BitVec 16) (s : State) : Out3 := actUp (groupStrobe fire) s

/-- GUARDED_PAIR_WRITE (R444). -/
def execGuardedPairWrite (x : U32) (y : U32) (s : State) : Out3 := actUp (guardedPair x y) s

/-- GUARD_WINDOW_EXPIRY (R444). -/
def execGuardWindowExpiry (n : Nat) (s : State) : Out3 := actUp (guardExpiry n) s

/-- CHIP_EVENT_CLEAR (R439). -/
def execChipEventClear (alert : Bool) (v : U32) (s : State) : Out3 := actUp (eventClear alert v) s

/-- COUNTER_LOW_READ (R132). -/
def execCounterLowRead (l : Nat) (s : State) : Out3 := actUp (counterLowRead l) s

/-- REGISTER_WRITE (R447). [DESIGN CHOICE, log 16] -/
def execRegisterWrite (l : Nat) (v : U32) (s : State) : Out3 := actUp (regWrite l v) s

/-- PWR_EN_RISE (R475). -/
def execPwrEnRise (s : State) : Out3 := act pwrEnRise s

/-- PWR_EN_FALL (R476). -/
def execPwrEnFall (s : State) : Out3 := act pwrEnFall s

/-- RST_L_ASSERT (R474). -/
def execRstLAssert (s : State) : Out3 := act rstAssert s

/-- MODULE_RESET (R486). -/
def execModuleReset (io : ItinIn) (s : State) : Out3 := act (moduleReset io) s

/-- CONTEXT_RESET (R488). -/
def execContextReset (c : Fin 16) (s : State) : Out3 := actUp (contextReset c.val) s

/-- COLD_START (R479). -/
def execColdStart (io : ItinIn) (s : State) : Out3 := act (coldStart io) s

/-- INPUT_SAMPLE (R472). -/
def execInputSample (v : U16) (s : State) : Out3 := act (inputSample v) s

/-- UNDERVOLTAGE_LOCKOUT (R489). -/
def execUndervoltageLockout (s : State) : Out3 := act undervoltage s

/-- OVERVOLTAGE_TRIP (R472). -/
def execOvervoltageTrip (s : State) : Out3 := act overvoltage s

/-- INPUT_RECOVERY_START (R489). -/
def execInputRecoveryStart (s : State) : Out3 := act inputRecovery s

/-- POWER_CAP_WINDOW (R473). -/
def execPowerCapWindow (w : U16) (s : State) : Out3 := actUp (capWindow w) s

/-- THERMAL_CRITICAL_PERSIST (R477). -/
def execThermalCriticalPersist (s : State) : Out3 := actUp thermalPersist s

/-- PACKAGE_THERMAL_ALERT (R477). -/
def execPackageThermalAlert (s : State) : Out3 := actUp packageAlert s

/-- PACKAGE_THERMAL_TRIP (R477). -/
def execPackageThermalTrip (s : State) : Out3 := actUp packageTrip s

/-- REFERENCE_LOST (R478). -/
def execReferenceLost (s : State) : Out3 := actPowered referenceLost s

/-- BORE_RUN_END (R501). -/
def execBoreRunEnd (fails : List BoreFail) (limit : Bool) (s : State) : Out3 := actUp (boreRunEnd fails limit) s

/-- SEQUENCE_LIMIT_REKEY (R305). -/
def execSequenceLimitRekey (k : Fin 32) (s : State) : Out3 := actUp (rekeyLink k.val) s

/-- ETHERNET_LINK_CHANGE (R417). -/
def execEthernetLinkChange (p : EtherPeer) (s : State) : Out3 := actUp (ethernetChange p) s

/-- HOST_PORT_RETRY (R479). -/
def execHostPortRetry (p : EtherPeer) (s : State) : Out3 := actUp (hostPortRetry p) s

/-- DHCP_REPLY (R419). -/
def execDhcpReply (ip : BitVec 32) (s : State) : Out3 := actUp (dhcpReply ip) s

/-- ROUTER_ADVERTISEMENT (R419). -/
def execRouterAdvertisement (prefix_ : U64) (s : State) : Out3 := actUp (routerAdvertisement prefix_) s

/-- NETWORK_RECOVERY_RETRY (R481). -/
def execNetworkRecoveryRetry (io : ItinIn) (s : State) : Out3 := act (recoveryRetry io) s

/-- BUS_TEMPERATURE_INDICATION (R286). -/
def execBusTemperatureIndication (bus : Fin 16) (hot : Bool) (s : State) : Out3 := actUp (busIndication bus.val hot) s

/-- ENTROPY_HEALTH_FAILURE (R453). -/
def execEntropyHealthFailure (s : State) : Out3 := actUp entropyFailure s

/-- LANE_LOCK_ACQUIRED (R495). -/
def execLaneLockAcquired (k : Fin 32) (j : Fin 9) (s : State) : Out3 := actUp (laneLocked k.val j.val) s

/-- LANE_LOCK_LOST (R495). -/
def execLaneLockLost (k : Fin 32) (j : Fin 9) (s : State) : Out3 := actUp (laneUnlocked k.val j.val) s

/-- TEST_ACCESS_PORT (R509). -/
def execTestAccessPort (code : Byte) (s : State) : Out3 := actPowered (testAccess code) s

/-- DEBUG_PORT_ACCESS (R510). -/
def execDebugPortAccess (d : DebugOp) (s : State) : Out3 := actUp (debugAccess d) s

end Sys2Proof.Machine
end

