-- ==== Sys2Proof/Machine/ExecRegion.lean ====
section
/-!
DEFINITION. The meaning of each command of instructions of the region units and the collective engine.
-/
namespace Sys2Proof.Machine

/-- DNEXT (R261). -/
def execDnext (u : UnitId) (o : Ops) (s : State) : Out3 := actUp (dnextEff u o) s

/-- DNEXT_TIMEOUT (R261). -/
def execDnextTimeout (u : UnitId) (s : State) : Out3 := actUp (dnextTimeoutEff u) s

/-- DAPPLY (R243). -/
def execDapply (u : UnitId) (o : Ops) (s : State) : Out3 := actUp (dapplyEff u o) s

/-- DPREP (R247). -/
def execDprep (u : UnitId) (o : Ops) (s : State) : Out3 := actUp (dprepEff u o) s

/-- DITER (R248). -/
def execDiter (u : UnitId) (o : Ops) (s : State) : Out3 := actUp (diterEff u o) s

/-- DFIN (R250). -/
def execDfin (u : UnitId) (o : Ops) (elapsed : Nat) (s : State) : Out3 := actUp (dfinEff u o elapsed) s

/-- DSTAT (R261). -/
def execDstat (u : UnitId) (o : Ops) (elapsed : Nat) (s : State) : Out3 := actUp (dstatEff u o elapsed) s

/-- BATCH_ENQUEUE (R200). -/
def execBatchEnqueue (k : Fin 12) (s : State) : Out3 := actUp (fun b => settleAll (batchEnqueue k.val b)) s

/-- UPD_NORM_PARTIAL (R376). -/
def execUpdNormPartial (u : UnitId) (o : Ops) (s : State) : Out3 := actUp (orBuiltin .norm0 u (updNormPartialEff u o)) s

/-- UPD_NORM_TOTAL (R378). -/
def execUpdNormTotal (u : UnitId) (o : Ops) (s : State) : Out3 := actUp (orBuiltin .norm1 u (updNormTotalEff u o)) s

/-- UPD_ADAM (R372). -/
def execUpdAdam (u : UnitId) (o : Ops) (s : State) : Out3 := actUp (orBuiltin (.update 0) u (updAdamEff u o)) s

/-- UPD_ADAMW (R372). -/
def execUpdAdamw (u : UnitId) (o : Ops) (s : State) : Out3 := actUp (orBuiltin (.update 1) u (updAdamwEff u o)) s

/-- UPD_SGDM (R372). -/
def execUpdSgdm (u : UnitId) (o : Ops) (s : State) : Out3 := actUp (orBuiltin (.update 2) u (updSgdmEff u o)) s

/-- COLL_ENGINE_PROGRAM (R336). -/
def execCollEngineProgram (k : Fin 12) (s : State) : Out3 := actUp (fun b => settleAll (collEngineProgram k.val b)) s

/-- ALL_GATHER (R337). -/
def execAllGather (k : Fin 12) (s : State) : Out3 := actUp (fun b => settleAll (allGather k.val b)) s

/-- REDUCE_SCATTER (R338). -/
def execReduceScatter (k : Fin 12) (s : State) : Out3 := actUp (fun b => settleAll (reduceScatter k.val b)) s

/-- BROADCAST (R339). -/
def execBroadcast (k : Fin 12) (s : State) : Out3 := actUp (fun b => settleAll (broadcast k.val b)) s

/-- PERMUTE (R342). -/
def execPermute (k : Fin 12) (s : State) : Out3 := actUp (fun b => settleAll (permute k.val b)) s

/-- COLL_UNDEFINED_KIND (R199). -/
def execCollUndefinedKind (k : Fin 12) (s : State) : Out3 := actUp (fun b => settleAll (collUndefinedKind k.val b)) s

/-- COLL_WAIT_TIMEOUT (R335). -/
def execCollWaitTimeout (k : Fin 12) (s : State) : Out3 := actUp (fun b => settleAll (collWaitTimeout k.val b)) s

end Sys2Proof.Machine
end

