-- ==== Sys2Proof/Machine/Integer.lean ====
section
/-!
DEFINITION. The integer class (R140, R141, R154).
-/
namespace Sys2Proof.Machine

/-- The second operand: s[b], or the immediate (R140). -/
def opB (i : UnitImg) (o : Ops) : U64 := if bit o 31 then imm16 o else sreg i (fb o)

/-- An integer operation: result and clamps counted. -/
def intEff (op : Nat) (legal : Ops → Bool) (f : U64 → U64 → U64 × Nat) (u : UnitId) (o : Ops) (b : Block) : Block :=
  issue b u (mkWord 1 op o) (legal o) fun c i =>
    let r := f (sreg i (fa o)) (opB i o)
    retire b c u (countEv (setS i (fd o) r.1) (evClamps r.2))

def noClamp (x : U64) : U64 × Nat := (x, 0)

/-- The shift amount, clamped to 63 (R154), and whether it was clamped. -/
def shiftAmount (y : U64) : Nat × Nat := if y.toNat ≤ 63 then (y.toNat, 0) else (63, 1)

/-- MUL by form (R141). -/
def mulForm (form : Nat) (x y : U64) : U64 :=
  if form = 0 then x * y
  else if form = 1 then BitVec.ofInt 64 ((x.toInt * y.toInt) / 2 ^ 64)
  else BitVec.ofNat 64 (x.toNat * y.toNat / 2 ^ 64)

/-- DIV by form on a nonzero divisor (R141): -2^63 ÷ -1 wraps. -/
def divForm (form : Nat) (x y : U64) : U64 :=
  if form = 0 then BitVec.ofInt 64 (x.toInt.tdiv y.toInt)
  else if form = 1 then BitVec.ofNat 64 (x.toNat / y.toNat)
  else if form = 2 then BitVec.ofInt 64 (x.toInt.tmod y.toInt)
  else BitVec.ofNat 64 (x.toNat % y.toNat)

/-- DIV with the divisor clamp of R154. -/
def divClamped (form : Nat) (x y : U64) : U64 × Nat :=
  if y = 0 then (divForm form x 1, 1) else (divForm form x y, 0)

def addEff := intEff 0x00 (legalInt false) fun x y => noClamp (x + y)
def subEff := intEff 0x01 (legalInt false) fun x y => noClamp (x - y)
def mulEff (u : UnitId) (o : Ops) := intEff 0x02 legalMul (fun x y => noClamp (mulForm (bits o 16 2) x y)) u o
def divEff (u : UnitId) (o : Ops) := intEff 0x03 legalDiv (divClamped (bits o 16 2)) u o
def andEff := intEff 0x04 (legalInt false) fun x y => noClamp (x &&& y)
def orEff := intEff 0x05 (legalInt false) fun x y => noClamp (x ||| y)
def xorEff := intEff 0x06 (legalInt false) fun x y => noClamp (x ^^^ y)
def shlEff := intEff 0x07 (legalInt false) fun x y => (x <<< (shiftAmount y).1, (shiftAmount y).2)
def shrEff := intEff 0x08 (legalInt false) fun x y => (x >>> (shiftAmount y).1, (shiftAmount y).2)
def sraEff := intEff 0x09 (legalInt false) fun x y => (x.sshiftRight (shiftAmount y).1, (shiftAmount y).2)

def addiEff (u : UnitId) (o : Ops) (b : Block) : Block :=
  issue b u (mkWord 1 0x10 o) (legalAddi o) fun c i =>
    retire b c u (setS i (fd o) (sreg i (fa o) + imm42 o))

end Sys2Proof.Machine
end

