-- ==== Sys2Proof/Machine/System.lean ====
section
/-!
DEFINITION. The system class (R151, R152, R157).
-/
namespace Sys2Proof.Machine

/-- The value SYSR returns (R151); CTX.SEED returns the seed in force. -/
def sysValue (b : Block) (c : Nat) (u : UnitId) (i : UnitImg) (n : Nat) : U64 :=
  let x := ctxOf b c
  match n with
  | 0x000 => BitVec.ofNat 64 (sysUnit u)
  | 0x001 => BitVec.ofNat 64 c
  | 0x002 => BitVec.ofNat 64 i.handler.toNat
  | 0x003 => x.image
  | 0x010 => x.step.setWidth 64
  | 0x011 => x.seed
  | 0x012 => x.epoch.setWidth 64
  | 0x020 => i.xvec
  | 0x021 => i.xpc
  | 0x022 => i.xcause.setWidth 64
  | 0x023 => i.xaddr
  | _ => i.xinst

def sysrEff (u : UnitId) (o : Ops) (b : Block) : Block :=
  issue b u (mkWord 5 0x00 o) (legalSysr o) fun c i =>
    retire b c u (setS i (fd o) (sysValue b c u i (bits o 0 12)))

/-- A write of CTX.SEED takes effect at the next step; the last write of each unit is kept, and each unit
counts its own writes (R152). [DESIGN CHOICE, log 105] -/
def writeSeed (b : Block) (c : Nat) (u : UnitId) (x : U64) : Block :=
  let k := ctxOf b c
  setCtx b c { k with seedPend := tins k.seedPend (sysUnit u) x }

def syswEff (u : UnitId) (o : Ops) (b : Block) : Block :=
  issue b u (mkWord 5 0x01 o) (legalSysw o) fun c i =>
    let x := sreg i (fa o)
    if bits o 0 12 = 0x011 then retire (writeSeed b c u x) c u { i with seeds := i.seeds + 1 }
    else
      let t := clearLow 3 x
      retire b c u (countEv { i with xvec := t.1 } (evClamps t.2))

/-- SYSW to XRET (R157): illegal outside handler state; a resume code above 1 is taken as 1 (R154). -/
def xretEff (u : UnitId) (o : Ops) (b : Block) : Block :=
  issue b u (mkWord 5 0x01 o) (legalXret o) fun c i =>
    if i.handler then
      let x := sreg i (fa o)
      setImg b c u (leaveHandler (countEv i (evClamps (if x.toNat ≤ 1 then 0 else 1))) (x != 0))
    else takeExc b c u 1 0 (mkWord 5 0x01 o)

end Sys2Proof.Machine
end

