-- ==== Sys2Proof/Machine/ExecUnit.lean ====
section
/-!
DEFINITION. The meaning of each command of instructions of the tiles, and what follows them.
-/
namespace Sys2Proof.Machine

/-- ADD (R140). -/
def execAdd (u : UnitId) (o : Ops) (s : State) : Out3 := actUp (addEff u o) s

/-- SUB (R140). -/
def execSub (u : UnitId) (o : Ops) (s : State) : Out3 := actUp (subEff u o) s

/-- MUL (R141). -/
def execMul (u : UnitId) (o : Ops) (s : State) : Out3 := actUp (mulEff u o) s

/-- DIV (R141). -/
def execDiv (u : UnitId) (o : Ops) (s : State) : Out3 := actUp (divEff u o) s

/-- AND (R140). -/
def execAnd (u : UnitId) (o : Ops) (s : State) : Out3 := actUp (andEff u o) s

/-- OR (R140). -/
def execOr (u : UnitId) (o : Ops) (s : State) : Out3 := actUp (orEff u o) s

/-- XOR (R140). -/
def execXor (u : UnitId) (o : Ops) (s : State) : Out3 := actUp (xorEff u o) s

/-- SHL (R140). -/
def execShl (u : UnitId) (o : Ops) (s : State) : Out3 := actUp (shlEff u o) s

/-- SHR (R140). -/
def execShr (u : UnitId) (o : Ops) (s : State) : Out3 := actUp (shrEff u o) s

/-- SRA (R140). -/
def execSra (u : UnitId) (o : Ops) (s : State) : Out3 := actUp (sraEff u o) s

/-- ADDI (R140). -/
def execAddi (u : UnitId) (o : Ops) (s : State) : Out3 := actUp (addiEff u o) s

/-- LD (R142). -/
def execLd (u : UnitId) (o : Ops) (s : State) : Out3 := actUp (ldEff u o) s

/-- ST (R142). -/
def execSt (u : UnitId) (o : Ops) (s : State) : Out3 := actUp (orBuiltin .store u (stEff u o)) s

/-- BEQ (R143). -/
def execBeq (u : UnitId) (o : Ops) (s : State) : Out3 := actUp (beqEff u o) s

/-- BNE (R143). -/
def execBne (u : UnitId) (o : Ops) (s : State) : Out3 := actUp (bneEff u o) s

/-- BLT (R143). -/
def execBlt (u : UnitId) (o : Ops) (s : State) : Out3 := actUp (bltEff u o) s

/-- BGE (R143). -/
def execBge (u : UnitId) (o : Ops) (s : State) : Out3 := actUp (bgeEff u o) s

/-- JAL (R143). -/
def execJal (u : UnitId) (o : Ops) (s : State) : Out3 := actUp (jalEff u o) s

/-- JALR (R143). -/
def execJalr (u : UnitId) (o : Ops) (s : State) : Out3 := actUp (jalrEff u o) s

/-- FADD (R144). -/
def execFadd (u : UnitId) (o : Ops) (s : State) : Out3 := actUp (faddEff u o) s

/-- FSUB (R144). -/
def execFsub (u : UnitId) (o : Ops) (s : State) : Out3 := actUp (fsubEff u o) s

/-- FMUL (R144). -/
def execFmul (u : UnitId) (o : Ops) (s : State) : Out3 := actUp (fmulEff u o) s

/-- FDIV (R144). -/
def execFdiv (u : UnitId) (o : Ops) (s : State) : Out3 := actUp (fdivEff u o) s

/-- FSQRT (R144). -/
def execFsqrt (u : UnitId) (o : Ops) (s : State) : Out3 := actUp (fsqrtEff u o) s

/-- FMA (R144). -/
def execFma (u : UnitId) (o : Ops) (s : State) : Out3 := actUp (fmaEff u o) s

/-- FMIN (R37). -/
def execFmin (u : UnitId) (o : Ops) (s : State) : Out3 := actUp (fminEff u o) s

/-- FMAX (R37). -/
def execFmax (u : UnitId) (o : Ops) (s : State) : Out3 := actUp (fmaxEff u o) s

/-- FCVT (R145). -/
def execFcvt (u : UnitId) (o : Ops) (s : State) : Out3 := actUp (fcvtEff u o) s

/-- SYSR (R151). -/
def execSysr (u : UnitId) (o : Ops) (s : State) : Out3 := actUp (sysrEff u o) s

/-- SYSW (R151). -/
def execSysw (u : UnitId) (o : Ops) (s : State) : Out3 := actUp (syswEff u o) s

/-- SYSW_XRET (R157). -/
def execSyswXret (u : UnitId) (o : Ops) (s : State) : Out3 := actUp (xretEff u o) s

/-- VSETVL (R147). -/
def execVsetvl (u : UnitId) (o : Ops) (s : State) : Out3 := actUp (vsetvlEff u o) s

/-- VLD (R148). -/
def execVld (u : UnitId) (o : Ops) (s : State) : Out3 := actUp (vldEff u o) s

/-- VST (R148). -/
def execVst (u : UnitId) (o : Ops) (s : State) : Out3 := actUp (vstEff u o) s

/-- VADD (R149). -/
def execVadd (u : UnitId) (o : Ops) (s : State) : Out3 := actUp (vaddEff u o) s

/-- VMUL (R149). -/
def execVmul (u : UnitId) (o : Ops) (s : State) : Out3 := actUp (vmulEff u o) s

/-- VFMA (R149). -/
def execVfma (u : UnitId) (o : Ops) (s : State) : Out3 := actUp (vfmaEff u o) s

/-- VMIN (R149). -/
def execVmin (u : UnitId) (o : Ops) (s : State) : Out3 := actUp (vminEff u o) s

/-- VMAX (R149). -/
def execVmax (u : UnitId) (o : Ops) (s : State) : Out3 := actUp (vmaxEff u o) s

/-- VRED (R150). -/
def execVred (u : UnitId) (o : Ops) (s : State) : Out3 := actUp (vredEff u o) s

/-- MMA (R173). -/
def execMma (u : UnitId) (o : Ops) (s : State) : Out3 := actUp (mmaEff u o) s

/-- CVT (R59). -/
def execCvt (u : UnitId) (o : Ops) (s : State) : Out3 := actUp (cvtEff u o) s

/-- CVT_ROLL (R66). -/
def execCvtRoll (u : UnitId) (o : Ops) (s : State) : Out3 := actUp (rollEff u o) s

/-- EWU (R178). -/
def execEwu (u : UnitId) (o : Ops) (s : State) : Out3 := actUp (ewuEff u o) s

/-- EWB (R180). -/
def execEwb (u : UnitId) (o : Ops) (s : State) : Out3 := actUp (ewbEff u o) s

/-- TRED (R181). -/
def execTred (u : UnitId) (o : Ops) (s : State) : Out3 := actUp (tredEff u o) s

/-- MSKP (R184). -/
def execMskp (u : UnitId) (o : Ops) (s : State) : Out3 := actUp (mskpEff u o) s

/-- MSKX (R185). -/
def execMskx (u : UnitId) (o : Ops) (s : State) : Out3 := actUp (mskxEff u o) s

/-- TXP (R95). -/
def execTxp (u : UnitId) (o : Ops) (s : State) : Out3 := actUp (txpEff u o) s

/-- MOVB (R94). -/
def execMovb (u : UnitId) (o : Ops) (s : State) : Out3 := actUp (movbEff u o) s

/-- GTH (R89). -/
def execGth (u : UnitId) (o : Ops) (s : State) : Out3 := actUp (gthEff u o) s

/-- SCT (R90). -/
def execSct (u : UnitId) (o : Ops) (s : State) : Out3 := actUp (sctEff u o) s

/-- SCTA (R91). -/
def execScta (u : UnitId) (o : Ops) (s : State) : Out3 := actUp (sctaEff u o) s

/-- HPUSH (R188). -/
def execHpush (u : UnitId) (o : Ops) (s : State) : Out3 := actUp (hpushEff u o) s

/-- HPOP (R189). -/
def execHpop (u : UnitId) (o : Ops) (s : State) : Out3 := actUp (hpopEff u o) s

/-- TIE_OPEN (R190). -/
def execTieOpen (u : UnitId) (o : Ops) (s : State) : Out3 := actUp (tieOpenEff u o) s

/-- TIE_ADD (R190). -/
def execTieAdd (u : UnitId) (o : Ops) (s : State) : Out3 := actUp (tieAddEff u o) s

/-- TIEX (R191). -/
def execTiex (u : UnitId) (o : Ops) (s : State) : Out3 := actUp (tiexEff u o) s

/-- PUT (R194). -/
def execPut (u : UnitId) (o : Ops) (s : State) : Out3 := actUp (putEff u o) s

/-- GET (R194). -/
def execGet (u : UnitId) (o : Ops) (s : State) : Out3 := actUp (getEff u o) s

/-- RADD (R195). -/
def execRadd (u : UnitId) (o : Ops) (s : State) : Out3 := actUp (orBuiltin .add u (raddEff u o)) s

/-- PUTS (R194). -/
def execPuts (u : UnitId) (o : Ops) (s : State) : Out3 := actUp (orBuiltin .puts u (putsEff u o)) s

/-- WAITC (R197). -/
def execWaitc (u : UnitId) (o : Ops) (s : State) : Out3 := actUp (orBuiltin .waitc u (waitcEff u o)) s

/-- WAITC_TIMEOUT (R127). -/
def execWaitcTimeout (u : UnitId) (s : State) : Out3 := actUp (waitcTimeoutEff u) s

/-- TILE_WAKE (R126). -/
def execTileWake (u : UnitId) (s : State) : Out3 := actUp (tileWakeEff u) s

/-- FENCE (R198). -/
def execFence (u : UnitId) (o : Ops) (s : State) : Out3 := actUp (orBuiltin .fence u (fenceEff u o)) s

/-- COLL (R199). -/
def execColl (u : UnitId) (o : Ops) (s : State) : Out3 := actUp (collEff u o) s

/-- DSUB (R200). -/
def execDsub (u : UnitId) (o : Ops) (s : State) : Out3 := actUp (dsubEff u o) s

/-- DPOLL (R202). -/
def execDpoll (u : UnitId) (o : Ops) (s : State) : Out3 := actUp (dpollEff u o) s

/-- LGF (R203). -/
def execLgf (u : UnitId) (o : Ops) (s : State) : Out3 := actUp (lgfEff u o) s

/-- STEPEND (R204). -/
def execStepend (u : UnitId) (o : Ops) (s : State) : Out3 := actUp (stependEff u o) s

/-- STEP_CLOSE (R204). -/
def execStepClose (s : State) : Out3 := actUp stepClose s

/-- PAIR_CHECK (R414). -/
def execPairCheck (s : State) : Out3 := actUp pairCheck s

/-- STEP_LIMIT_EXPIRY (R426). -/
def execStepLimitExpiry (s : State) : Out3 := actUp stepLimit s

/-- LEDGER_RING_WAIT_END (R400). -/
def execLedgerRingWaitEnd (s : State) : Out3 := actUp ringWaitEnd s

end Sys2Proof.Machine
end

