-- ==== Sys2Proof/Machine/Dispatch.lean ====
section
/-!
DEFINITION. The meaning of a command: one arm per constructor, each one call.
-/
namespace Sys2Proof.Machine

/-- [DESIGN CHOICE, log 2] -/
def exec (i : Instr) (s : State) : Host.Outcome State Fault Refusal :=
  match i with
  | .add u o => Sys2Proof.Machine.execAdd u o s
  | .sub u o => Sys2Proof.Machine.execSub u o s
  | .mul u o => Sys2Proof.Machine.execMul u o s
  | .div u o => Sys2Proof.Machine.execDiv u o s
  | .and u o => Sys2Proof.Machine.execAnd u o s
  | .or u o => Sys2Proof.Machine.execOr u o s
  | .xor u o => Sys2Proof.Machine.execXor u o s
  | .shl u o => Sys2Proof.Machine.execShl u o s
  | .shr u o => Sys2Proof.Machine.execShr u o s
  | .sra u o => Sys2Proof.Machine.execSra u o s
  | .addi u o => Sys2Proof.Machine.execAddi u o s
  | .ld u o => Sys2Proof.Machine.execLd u o s
  | .st u o => Sys2Proof.Machine.execSt u o s
  | .beq u o => Sys2Proof.Machine.execBeq u o s
  | .bne u o => Sys2Proof.Machine.execBne u o s
  | .blt u o => Sys2Proof.Machine.execBlt u o s
  | .bge u o => Sys2Proof.Machine.execBge u o s
  | .jal u o => Sys2Proof.Machine.execJal u o s
  | .jalr u o => Sys2Proof.Machine.execJalr u o s
  | .fadd u o => Sys2Proof.Machine.execFadd u o s
  | .fsub u o => Sys2Proof.Machine.execFsub u o s
  | .fmul u o => Sys2Proof.Machine.execFmul u o s
  | .fdiv u o => Sys2Proof.Machine.execFdiv u o s
  | .fsqrt u o => Sys2Proof.Machine.execFsqrt u o s
  | .fma u o => Sys2Proof.Machine.execFma u o s
  | .fmin u o => Sys2Proof.Machine.execFmin u o s
  | .fmax u o => Sys2Proof.Machine.execFmax u o s
  | .fcvt u o => Sys2Proof.Machine.execFcvt u o s
  | .sysr u o => Sys2Proof.Machine.execSysr u o s
  | .sysw u o => Sys2Proof.Machine.execSysw u o s
  | .syswXret u o => Sys2Proof.Machine.execSyswXret u o s
  | .vsetvl u o => Sys2Proof.Machine.execVsetvl u o s
  | .vld u o => Sys2Proof.Machine.execVld u o s
  | .vst u o => Sys2Proof.Machine.execVst u o s
  | .vadd u o => Sys2Proof.Machine.execVadd u o s
  | .vmul u o => Sys2Proof.Machine.execVmul u o s
  | .vfma u o => Sys2Proof.Machine.execVfma u o s
  | .vmin u o => Sys2Proof.Machine.execVmin u o s
  | .vmax u o => Sys2Proof.Machine.execVmax u o s
  | .vred u o => Sys2Proof.Machine.execVred u o s
  | .mma u o => Sys2Proof.Machine.execMma u o s
  | .cvt u o => Sys2Proof.Machine.execCvt u o s
  | .cvtRoll u o => Sys2Proof.Machine.execCvtRoll u o s
  | .ewu u o => Sys2Proof.Machine.execEwu u o s
  | .ewb u o => Sys2Proof.Machine.execEwb u o s
  | .tred u o => Sys2Proof.Machine.execTred u o s
  | .mskp u o => Sys2Proof.Machine.execMskp u o s
  | .mskx u o => Sys2Proof.Machine.execMskx u o s
  | .txp u o => Sys2Proof.Machine.execTxp u o s
  | .movb u o => Sys2Proof.Machine.execMovb u o s
  | .gth u o => Sys2Proof.Machine.execGth u o s
  | .sct u o => Sys2Proof.Machine.execSct u o s
  | .scta u o => Sys2Proof.Machine.execScta u o s
  | .hpush u o => Sys2Proof.Machine.execHpush u o s
  | .hpop u o => Sys2Proof.Machine.execHpop u o s
  | .tieOpen u o => Sys2Proof.Machine.execTieOpen u o s
  | .tieAdd u o => Sys2Proof.Machine.execTieAdd u o s
  | .tiex u o => Sys2Proof.Machine.execTiex u o s
  | .put u o => Sys2Proof.Machine.execPut u o s
  | .get u o => Sys2Proof.Machine.execGet u o s
  | .radd u o => Sys2Proof.Machine.execRadd u o s
  | .puts u o => Sys2Proof.Machine.execPuts u o s
  | .waitc u o => Sys2Proof.Machine.execWaitc u o s
  | .waitcTimeout u => Sys2Proof.Machine.execWaitcTimeout u s
  | .tileWake u => Sys2Proof.Machine.execTileWake u s
  | .fence u o => Sys2Proof.Machine.execFence u o s
  | .coll u o => Sys2Proof.Machine.execColl u o s
  | .dsub u o => Sys2Proof.Machine.execDsub u o s
  | .dpoll u o => Sys2Proof.Machine.execDpoll u o s
  | .lgf u o => Sys2Proof.Machine.execLgf u o s
  | .stepend u o => Sys2Proof.Machine.execStepend u o s
  | .stepClose => Sys2Proof.Machine.execStepClose s
  | .pairCheck => Sys2Proof.Machine.execPairCheck s
  | .stepLimitExpiry => Sys2Proof.Machine.execStepLimitExpiry s
  | .ledgerRingWaitEnd => Sys2Proof.Machine.execLedgerRingWaitEnd s
  | .dnext u o => Sys2Proof.Machine.execDnext u o s
  | .dnextTimeout u => Sys2Proof.Machine.execDnextTimeout u s
  | .dapply u o => Sys2Proof.Machine.execDapply u o s
  | .dprep u o => Sys2Proof.Machine.execDprep u o s
  | .diter u o => Sys2Proof.Machine.execDiter u o s
  | .dfin u o elapsed => Sys2Proof.Machine.execDfin u o elapsed s
  | .dstat u o elapsed => Sys2Proof.Machine.execDstat u o elapsed s
  | .batchEnqueue k => Sys2Proof.Machine.execBatchEnqueue k s
  | .updNormPartial u o => Sys2Proof.Machine.execUpdNormPartial u o s
  | .updNormTotal u o => Sys2Proof.Machine.execUpdNormTotal u o s
  | .updAdam u o => Sys2Proof.Machine.execUpdAdam u o s
  | .updAdamw u o => Sys2Proof.Machine.execUpdAdamw u o s
  | .updSgdm u o => Sys2Proof.Machine.execUpdSgdm u o s
  | .collEngineProgram k => Sys2Proof.Machine.execCollEngineProgram k s
  | .allGather k => Sys2Proof.Machine.execAllGather k s
  | .reduceScatter k => Sys2Proof.Machine.execReduceScatter k s
  | .broadcast k => Sys2Proof.Machine.execBroadcast k s
  | .permute k => Sys2Proof.Machine.execPermute k s
  | .collUndefinedKind k => Sys2Proof.Machine.execCollUndefinedKind k s
  | .collWaitTimeout k => Sys2Proof.Machine.execCollWaitTimeout k s
  | .requestArrival r => Sys2Proof.Machine.execRequestArrival r s
  | .responseArrival r => Sys2Proof.Machine.execResponseArrival r s
  | .requestTimeout t => Sys2Proof.Machine.execRequestTimeout t s
  | .tagQuarantineEnd t => Sys2Proof.Machine.execTagQuarantineEnd t s
  | .flitReceive k lanes => Sys2Proof.Machine.execFlitReceive k lanes s
  | .linkControlFlit k ack nak flags credits => Sys2Proof.Machine.execLinkControlFlit k ack nak flags credits s
  | .linkControlInterval k => Sys2Proof.Machine.execLinkControlInterval k s
  | .flitSwitchDiscard k j => Sys2Proof.Machine.execFlitSwitchDiscard k j s
  | .linkRetrain k cause => Sys2Proof.Machine.execLinkRetrain k cause s
  | .linkDetect k lanes => Sys2Proof.Machine.execLinkDetect k lanes s
  | .linkEqualize k => Sys2Proof.Machine.execLinkEqualize k s
  | .linkTest k errs => Sys2Proof.Machine.execLinkTest k errs s
  | .linkAlign k => Sys2Proof.Machine.execLinkAlign k s
  | .linkIdent k peer coord dir index => Sys2Proof.Machine.execLinkIdent k peer coord dir index s
  | .linkKey k p => Sys2Proof.Machine.execLinkKey k p s
  | .linkNarrow k => Sys2Proof.Machine.execLinkNarrow k s
  | .linkWiden k => Sys2Proof.Machine.execLinkWiden k s
  | .remapRedraw => Sys2Proof.Machine.execRemapRedraw s
  | .mcScrub k => Sys2Proof.Machine.execMcScrub k s
  | .tileScrub t => Sys2Proof.Machine.execTileScrub t s
  | .selfRefreshEntry k => Sys2Proof.Machine.execSelfRefreshEntry k s
  | .selfRefreshExit k => Sys2Proof.Machine.execSelfRefreshExit k s
  | .temperatureBandReport k band => Sys2Proof.Machine.execTemperatureBandReport k band s
  | .throttleRelax k => Sys2Proof.Machine.execThrottleRelax k s
  | .regionPllLock k => Sys2Proof.Machine.execRegionPllLock k s
  | .regionPllLockLoss k => Sys2Proof.Machine.execRegionPllLockLoss k s
  | .svuPowerDown t => Sys2Proof.Machine.execSvuPowerDown t s
  | .houseBeatTimer => Sys2Proof.Machine.execHouseBeatTimer s
  | .houseMessageArrival r => Sys2Proof.Machine.execHouseMessageArrival r s
  | .beat m => Sys2Proof.Machine.execBeat m s
  | .alive m => Sys2Proof.Machine.execAlive m s
  | .suspect m => Sys2Proof.Machine.execSuspect m s
  | .probe m => Sys2Proof.Machine.execProbe m s
  | .echo m => Sys2Proof.Machine.execEcho m s
  | .dead m => Sys2Proof.Machine.execDead m s
  | .prepare m => Sys2Proof.Machine.execPrepare m s
  | .ready m => Sys2Proof.Machine.execReady m s
  | .commit m => Sys2Proof.Machine.execCommit m s
  | .relay m second => Sys2Proof.Machine.execRelay m second s
  | .sig m => Sys2Proof.Machine.execSig m s
  | .join m => Sys2Proof.Machine.execJoin m s
  | .admitModule m => Sys2Proof.Machine.execAdmit m s
  | .memberSilence m => Sys2Proof.Machine.execMemberSilence m s
  | .keeperSilence c => Sys2Proof.Machine.execKeeperSilence c s
  | .probeTimeout m => Sys2Proof.Machine.execProbeTimeout m s
  | .readyTimeout m => Sys2Proof.Machine.execReadyTimeout m s
  | .suspectReport c => Sys2Proof.Machine.execSuspectReport c s
  | .hostFrameReceive frame second target => Sys2Proof.Machine.execHostFrameReceive frame second target s
  | .hostResendTimer id ch => Sys2Proof.Machine.execHostResendTimer id ch s
  | .hostAckTimer id ch => Sys2Proof.Machine.execHostAckTimer id ch s
  | .sessionInactivity id => Sys2Proof.Machine.execSessionInactivity id s
  | .hello role body => Sys2Proof.Machine.execHello role body s
  | .encap session body => Sys2Proof.Machine.execEncap session body s
  | .agreementTimeout session => Sys2Proof.Machine.execAgreementTimeout session s
  | .arpRequest mac ip want => Sys2Proof.Machine.execArpRequest mac ip want s
  | .neighbourSolicitation mac ip want => Sys2Proof.Machine.execNeighbourSolicitation mac ip want s
  | .echoRequest v6 mac ip want x => Sys2Proof.Machine.execEchoRequest v6 mac ip want x s
  | .status h => Sys2Proof.Machine.execStatus h s
  | .identity h => Sys2Proof.Machine.execIdentity h s
  | .sessionClose h => Sys2Proof.Machine.execSessionClose h s
  | .regRead h => Sys2Proof.Machine.execRegRead h s
  | .regWrite h => Sys2Proof.Machine.execRegWrite h s
  | .ctxCreate h => Sys2Proof.Machine.execCtxCreate h s
  | .ctxDestroy h => Sys2Proof.Machine.execCtxDestroy h s
  | .ctxRun h => Sys2Proof.Machine.execCtxRun h s
  | .ctxDrain h => Sys2Proof.Machine.execCtxDrain h s
  | .checkpoint h => Sys2Proof.Machine.execCheckpoint h s
  | .resume h => Sys2Proof.Machine.execResume h s
  | .streamAttach h => Sys2Proof.Machine.execStreamAttach h s
  | .programLoad h => Sys2Proof.Machine.execProgramLoad h s
  | .keyLoadBindOwner h => Sys2Proof.Machine.execKeyLoadBindOwner h s
  | .keyLoadEnrolOperator h => Sys2Proof.Machine.execKeyLoadEnrolOperator h s
  | .keyLoadRemoveOperator h => Sys2Proof.Machine.execKeyLoadRemoveOperator h s
  | .firmwareLoad h => Sys2Proof.Machine.execFirmwareLoad h s
  | .lock h => Sys2Proof.Machine.execLock h s
  | .debug h => Sys2Proof.Machine.execDebug h s
  | .reset h => Sys2Proof.Machine.execReset h s
  | .fleetTestRun h => Sys2Proof.Machine.execFleetTestRun h s
  | .fleetTestRemove h => Sys2Proof.Machine.execFleetTestRemove h s
  | .signaturesRead h => Sys2Proof.Machine.execSignaturesRead h s
  | .signaturesAck h => Sys2Proof.Machine.execSignaturesAck h s
  | .spareOverride h => Sys2Proof.Machine.execSpareOverride h s
  | .torusTable h => Sys2Proof.Machine.execTorusTable h s
  | .bulkWrite id seq c l x => Sys2Proof.Machine.execBulkWrite id seq c l x s
  | .bulkWriteSignal id seq c l x ctr inc => Sys2Proof.Machine.execBulkWriteSignal id seq c l x ctr inc s
  | .bulkReadRequest id seq c l n => Sys2Proof.Machine.execBulkReadRequest id seq c l n s
  | .tileCtrlHalt t x => Sys2Proof.Machine.execTileCtrlHalt t x s
  | .tileReset t => Sys2Proof.Machine.execTileReset t s
  | .drkCtrlHalt k x => Sys2Proof.Machine.execDrkCtrlHalt k x s
  | .drkCtrlReset k => Sys2Proof.Machine.execDrkCtrlReset k s
  | .drkForceWrite k v => Sys2Proof.Machine.execDrkForceWrite k v s
  | .rckCtrlHalt k x => Sys2Proof.Machine.execRckCtrlHalt k x s
  | .mcCtrlFlush k => Sys2Proof.Machine.execMcCtrlFlush k s
  | .linkCtrlDisable k x => Sys2Proof.Machine.execLinkCtrlDisable k x s
  | .linkCtrlRetrain k => Sys2Proof.Machine.execLinkCtrlRetrain k s
  | .linkCtrlNarrowEn k x => Sys2Proof.Machine.execLinkCtrlNarrowEn k x s
  | .laneTestPattern k pattern loop lanes => Sys2Proof.Machine.execLaneTestPattern k pattern loop lanes s
  | .laneTestInject k => Sys2Proof.Machine.execLaneTestInject k s
  | .hpCtrlDisable x => Sys2Proof.Machine.execHpCtrlDisable x s
  | .hpCtrlForce800 x => Sys2Proof.Machine.execHpCtrlForce800 x s
  | .hpTestPattern v => Sys2Proof.Machine.execHpTestPattern v s
  | .updGo n => Sys2Proof.Machine.execUpdGo n s
  | .groupStrobe fire => Sys2Proof.Machine.execGroupStrobe fire s
  | .guardedPairWrite x y => Sys2Proof.Machine.execGuardedPairWrite x y s
  | .guardWindowExpiry n => Sys2Proof.Machine.execGuardWindowExpiry n s
  | .chipEventClear alert v => Sys2Proof.Machine.execChipEventClear alert v s
  | .counterLowRead l => Sys2Proof.Machine.execCounterLowRead l s
  | .registerWrite l v => Sys2Proof.Machine.execRegisterWrite l v s
  | .pwrEnRise => Sys2Proof.Machine.execPwrEnRise s
  | .pwrEnFall => Sys2Proof.Machine.execPwrEnFall s
  | .rstLAssert => Sys2Proof.Machine.execRstLAssert s
  | .moduleReset io => Sys2Proof.Machine.execModuleReset io s
  | .contextReset c => Sys2Proof.Machine.execContextReset c s
  | .coldStart io => Sys2Proof.Machine.execColdStart io s
  | .inputSample v => Sys2Proof.Machine.execInputSample v s
  | .undervoltageLockout => Sys2Proof.Machine.execUndervoltageLockout s
  | .overvoltageTrip => Sys2Proof.Machine.execOvervoltageTrip s
  | .inputRecoveryStart => Sys2Proof.Machine.execInputRecoveryStart s
  | .powerCapWindow w => Sys2Proof.Machine.execPowerCapWindow w s
  | .thermalCriticalPersist => Sys2Proof.Machine.execThermalCriticalPersist s
  | .packageThermalAlert => Sys2Proof.Machine.execPackageThermalAlert s
  | .packageThermalTrip => Sys2Proof.Machine.execPackageThermalTrip s
  | .referenceLost => Sys2Proof.Machine.execReferenceLost s
  | .boreRunEnd fails limit => Sys2Proof.Machine.execBoreRunEnd fails limit s
  | .sequenceLimitRekey k => Sys2Proof.Machine.execSequenceLimitRekey k s
  | .ethernetLinkChange p => Sys2Proof.Machine.execEthernetLinkChange p s
  | .hostPortRetry p => Sys2Proof.Machine.execHostPortRetry p s
  | .dhcpReply ip => Sys2Proof.Machine.execDhcpReply ip s
  | .routerAdvertisement prefix_ => Sys2Proof.Machine.execRouterAdvertisement prefix_ s
  | .networkRecoveryRetry io => Sys2Proof.Machine.execNetworkRecoveryRetry io s
  | .busTemperatureIndication bus hot => Sys2Proof.Machine.execBusTemperatureIndication bus hot s
  | .entropyHealthFailure => Sys2Proof.Machine.execEntropyHealthFailure s
  | .laneLockAcquired k j => Sys2Proof.Machine.execLaneLockAcquired k j s
  | .laneLockLost k j => Sys2Proof.Machine.execLaneLockLost k j s
  | .testAccessPort code => Sys2Proof.Machine.execTestAccessPort code s
  | .debugPortAccess d => Sys2Proof.Machine.execDebugPortAccess d s

end Sys2Proof.Machine
end

