-- ==== Sys2Proof/Machine/Encoded.lean ====
section
/-!
DEFINITION. Instruction words (R137 to R139): the command that a word gives its unit, by class and operation, and what a unit
does with a word of any bits.
-/
namespace Sys2Proof.Machine

/-- Class, operation and operand bits of a word (R137). -/
def wordClass (w : U64) : Nat := (w.extractLsb' 58 6).toNat
def wordOp (w : U64) : Nat := (w.extractLsb' 52 6).toNat
def wordOps (w : U64) : Ops := w.extractLsb' 0 52

/-- Class 0x01 (R140). -/
def decodeInt (u : UnitId) (op : Nat) (o : Ops) : Option Instr :=
  match op with
  | 0x00 => some (.add u o)
  | 0x01 => some (.sub u o)
  | 0x02 => some (.mul u o)
  | 0x03 => some (.div u o)
  | 0x04 => some (.and u o)
  | 0x05 => some (.or u o)
  | 0x06 => some (.xor u o)
  | 0x07 => some (.shl u o)
  | 0x08 => some (.shr u o)
  | 0x09 => some (.sra u o)
  | 0x10 => some (.addi u o)
  | _ => none

/-- Classes 0x02, 0x03 and 0x05 (R142, R143, R151). -/
def decodeMem (u : UnitId) (op : Nat) (o : Ops) : Option Instr :=
  match op with
  | 0x00 => some (.ld u o)
  | 0x01 => some (.st u o)
  | _ => none

def decodeControl (u : UnitId) (op : Nat) (o : Ops) : Option Instr :=
  match op with
  | 0x00 => some (.beq u o)
  | 0x01 => some (.bne u o)
  | 0x02 => some (.blt u o)
  | 0x03 => some (.bge u o)
  | 0x08 => some (.jal u o)
  | 0x09 => some (.jalr u o)
  | _ => none

def decodeSystem (u : UnitId) (op : Nat) (o : Ops) : Option Instr :=
  match op with
  | 0x00 => some (.sysr u o)
  | 0x01 => some (if bits o 0 12 = 0x025 then .syswXret u o else .sysw u o)
  | _ => none

/-- Class 0x04 (R144, R145). -/
def decodeF64 (u : UnitId) (op : Nat) (o : Ops) : Option Instr :=
  match op with
  | 0x00 => some (.fadd u o)
  | 0x01 => some (.fsub u o)
  | 0x02 => some (.fmul u o)
  | 0x03 => some (.fdiv u o)
  | 0x04 => some (.fsqrt u o)
  | 0x05 => some (.fma u o)
  | 0x06 => some (.fmin u o)
  | 0x07 => some (.fmax u o)
  | 0x08 => some (.fcvt u o)
  | _ => none

/-- Class 0x08 (R147 to R150). -/
def decodeVector (u : UnitId) (op : Nat) (o : Ops) : Option Instr :=
  match op with
  | 0x00 => some (.vsetvl u o)
  | 0x01 => some (.vld u o)
  | 0x02 => some (.vst u o)
  | 0x03 => some (.vadd u o)
  | 0x04 => some (.vmul u o)
  | 0x05 => some (.vfma u o)
  | 0x06 => some (.vmin u o)
  | 0x07 => some (.vmax u o)
  | 0x08 => some (.vred u o)
  | _ => none

/-- Class 0x10 (R166): CVT and TIE by their form fields. -/
def decodeTensor (u : UnitId) (op : Nat) (o : Ops) : Option Instr :=
  match op with
  | 0x00 => some (.mma u o)
  | 0x01 => some (if bit o 3 then .cvtRoll u o else .cvt u o)
  | 0x02 => some (.ewu u o)
  | 0x03 => some (.ewb u o)
  | 0x04 => some (.tred u o)
  | 0x05 => some (.mskp u o)
  | 0x06 => some (.mskx u o)
  | 0x07 => some (.txp u o)
  | 0x08 => some (.movb u o)
  | 0x09 => some (.gth u o)
  | 0x0A => some (.sct u o)
  | 0x0B => some (.scta u o)
  | 0x0C => some (.hpush u o)
  | 0x0D => some (.hpop u o)
  | 0x0E => if bits o 0 2 = 0 then some (.tieOpen u o) else if bits o 0 2 = 1 then some (.tieAdd u o) else none
  | 0x0F => some (.tiex u o)
  | _ => none

/-- Class 0x14 (R193). -/
def decodeFabric (u : UnitId) (op : Nat) (o : Ops) : Option Instr :=
  match op with
  | 0x00 => some (.put u o)
  | 0x01 => some (.get u o)
  | 0x02 => some (.radd u o)
  | 0x03 => some (.puts u o)
  | 0x04 => some (.waitc u o)
  | 0x05 => some (.fence u o)
  | 0x08 => some (.coll u o)
  | _ => none

/-- Class 0x18 (R200, R261): `elapsed` is the time that DFIN and DSTAT find gone by. -/
def decodeDerrick (u : UnitId) (op : Nat) (o : Ops) (elapsed : Nat) : Option Instr :=
  match op with
  | 0x00 => some (.dsub u o)
  | 0x01 => some (.dpoll u o)
  | 0x10 => some (.dnext u o)
  | 0x11 => some (.dapply u o)
  | 0x12 => some (.dprep u o)
  | 0x13 => some (.diter u o)
  | 0x14 => some (.dfin u o elapsed)
  | 0x15 => some (.dstat u o elapsed)
  | _ => none

/-- Classes 0x1C and 0x20 (R203, R204, R369): UPD.NORM by its form. -/
def decodeLedger (u : UnitId) (op : Nat) (o : Ops) : Option Instr :=
  match op with
  | 0x00 => some (.lgf u o)
  | 0x01 => some (.stepend u o)
  | _ => none

def decodeUpdate (u : UnitId) (op : Nat) (o : Ops) : Option Instr :=
  match op with
  | 0x00 => some (if bit o 0 then .updNormTotal u o else .updNormPartial u o)
  | 0x01 => some (.updAdam u o)
  | 0x02 => some (.updAdamw u o)
  | 0x03 => some (.updSgdm u o)
  | _ => none

/-- The command that a word gives its unit: none where its class is not in the table of R138 or its operation names nothing
of the class (R139). -/
def decodeWord (u : UnitId) (elapsed : Nat) (w : U64) : Option Instr :=
  let op := wordOp w
  let o := wordOps w
  match wordClass w with
  | 0x01 => decodeInt u op o
  | 0x02 => decodeMem u op o
  | 0x03 => decodeControl u op o
  | 0x04 => decodeF64 u op o
  | 0x05 => decodeSystem u op o
  | 0x08 => decodeVector u op o
  | 0x10 => decodeTensor u op o
  | 0x14 => decodeFabric u op o
  | 0x18 => decodeDerrick u op o elapsed
  | 0x1C => decodeLedger u op o
  | 0x20 => decodeUpdate u op o
  | _ => none

/-- What a unit does with the word at its pc: its command's effect, or cause 1 for a word that is none (R139); the table of
commands has no row for such a word. [DESIGN CHOICE, log 4] -/
def execWord (u : UnitId) (elapsed : Nat) (w : U64) (s : State) : Host.Outcome State Fault Refusal :=
  match decodeWord u elapsed w with
  | some i => exec i s
  | none => actUp (fun b => issue b u w false fun _ _ => b) s

/-! ### The words of instructions -/

/-- The word of an instruction and its unit (R137, R138); none for a command that is no instruction. -/
def encodeWord : Instr → Option (UnitId × U64)
  | .add u o => some (u, mkWord 0x01 0x00 o)
  | .sub u o => some (u, mkWord 0x01 0x01 o)
  | .mul u o => some (u, mkWord 0x01 0x02 o)
  | .div u o => some (u, mkWord 0x01 0x03 o)
  | .and u o => some (u, mkWord 0x01 0x04 o)
  | .or u o => some (u, mkWord 0x01 0x05 o)
  | .xor u o => some (u, mkWord 0x01 0x06 o)
  | .shl u o => some (u, mkWord 0x01 0x07 o)
  | .shr u o => some (u, mkWord 0x01 0x08 o)
  | .sra u o => some (u, mkWord 0x01 0x09 o)
  | .addi u o => some (u, mkWord 0x01 0x10 o)
  | .ld u o => some (u, mkWord 0x02 0x00 o)
  | .st u o => some (u, mkWord 0x02 0x01 o)
  | .beq u o => some (u, mkWord 0x03 0x00 o)
  | .bne u o => some (u, mkWord 0x03 0x01 o)
  | .blt u o => some (u, mkWord 0x03 0x02 o)
  | .bge u o => some (u, mkWord 0x03 0x03 o)
  | .jal u o => some (u, mkWord 0x03 0x08 o)
  | .jalr u o => some (u, mkWord 0x03 0x09 o)
  | .fadd u o => some (u, mkWord 0x04 0x00 o)
  | .fsub u o => some (u, mkWord 0x04 0x01 o)
  | .fmul u o => some (u, mkWord 0x04 0x02 o)
  | .fdiv u o => some (u, mkWord 0x04 0x03 o)
  | .fsqrt u o => some (u, mkWord 0x04 0x04 o)
  | .fma u o => some (u, mkWord 0x04 0x05 o)
  | .fmin u o => some (u, mkWord 0x04 0x06 o)
  | .fmax u o => some (u, mkWord 0x04 0x07 o)
  | .fcvt u o => some (u, mkWord 0x04 0x08 o)
  | .sysr u o => some (u, mkWord 0x05 0x00 o)
  | .syswXret u o => some (u, mkWord 0x05 0x01 o)
  | .sysw u o => some (u, mkWord 0x05 0x01 o)
  | .vsetvl u o => some (u, mkWord 0x08 0x00 o)
  | .vld u o => some (u, mkWord 0x08 0x01 o)
  | .vst u o => some (u, mkWord 0x08 0x02 o)
  | .vadd u o => some (u, mkWord 0x08 0x03 o)
  | .vmul u o => some (u, mkWord 0x08 0x04 o)
  | .vfma u o => some (u, mkWord 0x08 0x05 o)
  | .vmin u o => some (u, mkWord 0x08 0x06 o)
  | .vmax u o => some (u, mkWord 0x08 0x07 o)
  | .vred u o => some (u, mkWord 0x08 0x08 o)
  | .mma u o => some (u, mkWord 0x10 0x00 o)
  | .cvtRoll u o => some (u, mkWord 0x10 0x01 o)
  | .cvt u o => some (u, mkWord 0x10 0x01 o)
  | .ewu u o => some (u, mkWord 0x10 0x02 o)
  | .ewb u o => some (u, mkWord 0x10 0x03 o)
  | .tred u o => some (u, mkWord 0x10 0x04 o)
  | .mskp u o => some (u, mkWord 0x10 0x05 o)
  | .mskx u o => some (u, mkWord 0x10 0x06 o)
  | .txp u o => some (u, mkWord 0x10 0x07 o)
  | .movb u o => some (u, mkWord 0x10 0x08 o)
  | .gth u o => some (u, mkWord 0x10 0x09 o)
  | .sct u o => some (u, mkWord 0x10 0x0A o)
  | .scta u o => some (u, mkWord 0x10 0x0B o)
  | .hpush u o => some (u, mkWord 0x10 0x0C o)
  | .hpop u o => some (u, mkWord 0x10 0x0D o)
  | .tieOpen u o => some (u, mkWord 0x10 0x0E o)
  | .tieAdd u o => some (u, mkWord 0x10 0x0E o)
  | .tiex u o => some (u, mkWord 0x10 0x0F o)
  | .put u o => some (u, mkWord 0x14 0x00 o)
  | .get u o => some (u, mkWord 0x14 0x01 o)
  | .radd u o => some (u, mkWord 0x14 0x02 o)
  | .puts u o => some (u, mkWord 0x14 0x03 o)
  | .waitc u o => some (u, mkWord 0x14 0x04 o)
  | .fence u o => some (u, mkWord 0x14 0x05 o)
  | .coll u o => some (u, mkWord 0x14 0x08 o)
  | .dsub u o => some (u, mkWord 0x18 0x00 o)
  | .dpoll u o => some (u, mkWord 0x18 0x01 o)
  | .dnext u o => some (u, mkWord 0x18 0x10 o)
  | .dapply u o => some (u, mkWord 0x18 0x11 o)
  | .dprep u o => some (u, mkWord 0x18 0x12 o)
  | .diter u o => some (u, mkWord 0x18 0x13 o)
  | .dfin u o _ => some (u, mkWord 0x18 0x14 o)
  | .dstat u o _ => some (u, mkWord 0x18 0x15 o)
  | .lgf u o => some (u, mkWord 0x1C 0x00 o)
  | .stepend u o => some (u, mkWord 0x1C 0x01 o)
  | .updNormTotal u o => some (u, mkWord 0x20 0x00 o)
  | .updNormPartial u o => some (u, mkWord 0x20 0x00 o)
  | .updAdam u o => some (u, mkWord 0x20 0x01 o)
  | .updAdamw u o => some (u, mkWord 0x20 0x02 o)
  | .updSgdm u o => some (u, mkWord 0x20 0x03 o)
  | _ => none

/-- The form field of the operand bits is that of the instruction, where several instructions share an operation. -/
def formOk : Instr → Bool
  | .cvt _ o => !bit o 3
  | .cvtRoll _ o => bit o 3
  | .sysw _ o => bits o 0 12 != 0x025
  | .syswXret _ o => bits o 0 12 == 0x025
  | .tieOpen _ o => bits o 0 2 == 0
  | .tieAdd _ o => bits o 0 2 == 1
  | .updNormPartial _ o => !bit o 0
  | .updNormTotal _ o => bit o 0
  | _ => true

/-- The time that an instruction finds gone by: an input of DFIN and DSTAT, and no part of their words. -/
def elapsedOf : Instr → Nat
  | .dfin _ _ e => e
  | .dstat _ _ e => e
  | _ => 0

end Sys2Proof.Machine
end

