-- ==== Sys2Proof/Safety.lean ====
section
/-!
DEFINITION. The terms that statements about the module use: when a unit executes, what state a command leaves, the
invariant of a block at rest, and the frames of instructions.
-/
namespace Sys2Proof.Machine

/-! ### A command acts -/

/-- The module is in Idle or above, so that its logic runs (R475). -/
def Up (s : State) : Prop := aboveStandby s.blk.pw.phase = true

/-- The state once a command's own effect has left block `b`: what follows every command has followed it. -/
def became (s : State) (b : Block) : State := { s with blk := after s.blk b }

/-- Unit `u` can execute an instruction of context `c`, from inside the context's program image. -/
def Executes (s : State) (u : UnitId) (c : Nat) : Prop :=
  Up s ∧ execCtx s.blk u = some c ∧ fetchOk s.blk c (img s.blk c u) = true

/-- The state once the instruction of unit `u` has retired with image `i`: the pc moves to the next word. -/
def ran (s : State) (c : Nat) (u : UnitId) (i : UnitImg) : State := became s (retire s.blk c u i)

/-- An image with `n` more clamps in OP_CLAMP (R153). -/
def addClamps (n : Nat) (i : UnitImg) : UnitImg := { i with cnt := { i.cnt with clamp := satAdd i.cnt.clamp n } }

/-! ### Tensor instructions -/

/-- The block once a tensor instruction's reads `m` have met the memory code, its reads of the tally buffer and the Porter
theirs, and its residue checks have re-executed what failed; and what stops it there (R104, R114). -/
def checked (u : UnitId) (op : Nat) (o : Ops) (blocks : Nat) (m : Met) : Block × Option Nat × Option SliceErr :=
  let f := meetBuffers m.b (tileNo u) (usesTally op) (usesPorter op o)
  let k := recheck f.1 (tileNo u) blocks
  (k.1, f.2, k.2)

/-- Nothing stands in the way of tensor instruction `op` of `blocks` blocks that reads `rs` and writes `ws`: every address is
mapped, remote operands have come, no read meets an uncorrectable word of tile SRAM, of the tally buffer or of the Porter,
and no residue check fails a third time (R104, R109, R110, R114). -/
def TensorReady (b : Block) (c : Nat) (u : UnitId) (op : Nat) (o : Ops) (blocks : Nat) (rs ws : List (U64 × Nat)) : Prop :=
  lowestBad b c (rs ++ ws) = none ∧ (rs.any fun r => missing b c (img b c u) r.1 r.2) = false ∧
    (meetReads b c u rs).faulted = false ∧ (checked u op o blocks (meetReads b c u rs)).2 = (none, none)

/-- What a tensor instruction leaves: refusals and events counted, spilled seams counted, its writes applied, the scale
digest gathered, and the instruction retired or waiting for its own remote writes (R168). -/
def tensorDone (c : Nat) (u : UnitId) (w : U64) (b : Block) (refused : List (U64 × Nat)) (r : TOut × UnitImg) : Block :=
  retireAfter (commitOut b c u refused r) c u w (img (commitOut b c u refused r) c u)

/-- The state after a tensor instruction of operation `op` and `blocks` blocks that reads `rs` and computes `run`. -/
def tensored (s : State) (c : Nat) (u : UnitId) (op : Nat) (o : Ops) (blocks : Nat) (rs : List (U64 × Nat))
    (run : Block → TOut × UnitImg) : State :=
  let m := meetReads s.blk c u rs
  became s (tensorDone c u (mkWord 16 op o) (checked u op o blocks m).1 m.refused (run m.view))

/-! ### Remote operations -/

/-- A remote instruction can leave: its local ranges are mapped, its port has room, its local source reads back without
a tile fault and supplies `x`, the block then being `b1` (R110, R192). -/
def RemoteReady (b : Block) (c : Nat) (u : UnitId) (ranges : List (U64 × Nat)) (src : U64 × Nat) (b1 : Block)
    (x : List Byte) : Prop :=
  (ranges.filterMap fun r => badByte b c r.1 r.2) = [] ∧ portFull (img b c u) = false ∧
    localData b c u src.1 src.2 = (.ok b1, x)

/-! ### Seams -/

/-- What a value adds to V (R49): its magnitude in units of 2^-192, truncated and held in range, with its sign. -/
def seamTerm : FVal → Int
  | .nan => 0
  | .inf _ => 0
  | .fin sg m e =>
    let u := min (seamUnits m e).1 seamMax
    if sg then -(u : Int) else (u : Int)

/-- Add a list of values to a seam, first to last. -/
def seamSum (s : Seam) (l : List FVal) : Seam := l.foldl (fun t x => seamAdd x t) s

/-! ### The invariant -/

/-- No runnable context is left idle: when none runs and no fleet test run holds them, none is runnable, and then the
region PLLs are stopped (R23, R467, R475). -/
def Rested (b : Block) : Prop :=
  b.running = none → b.ft.run = none → nextRunnable b = none ∧ b.pw.regionPll = []

/-! ### Frames -/

/-- Two blocks agree on everything but the images of units, and, where the debug port steps a unit, on that. -/
def SameButUnits (b d : Block) : Prop :=
  { d with units := b.units, chip := b.chip } = b ∧ { d.chip with stepOnce := b.chip.stepOnce } = b.chip

/-- Every image but that of unit `u` of context `c` is as it was. -/
def OtherImages (b d : Block) (c : Nat) (u : UnitId) : Prop :=
  ∀ v k, unitKey k v ≠ unitKey c u → img d k v = img b k v

/-! ### Houses -/

/-- A message of type `kind` waits in module m's slot: `x`, the block then being `b1` with acknowledgements and terms
noted (R353, R356, R360). -/
def Received (s : State) (kind m : Nat) (x : HouseMsg) (b1 : Block) : Prop :=
  Up s ∧ takeMsg s.blk kind m = (some x, b1)

/-! ### Host commands -/

/-- A command of an open session `x` that passes the checks of R428: it is new, names this module, has the flag and
length its kind has, comes from a role that may issue it, and, where critical, carries the right check and a counter
above the last one. -/
def Accepted (b : Block) (op : Nat) (critical : Bool) (roles : List Role) (h : Cmd) (x : Session) : Prop :=
  tlook b.sessions h.session = some x ∧ (x.kept.find? fun r => r.id == h.id) = none ∧ h.target = b.geo.own.toNat ∧
    h.flags.getLsbD 0 = critical ∧ h.len = h.params.length ∧ roles.contains x.role = true ∧
    (critical = true →
      Config.kmac (commandKey x.z) (leBytes 8 h.session ++ cmdBytes op h) 128 (ascii "ZTM-T32 CMD") = h.check ∧
        b.hp.lastCtr.toNat < h.counter.toNat)

/-- The block as a critical command finds it: the counter is taken, and persisted where it reaches the ceiling (R429). -/
def afterCounter (b : Block) (h : Cmd) : Block :=
  { raiseW b h.counter.toNat with hp := { (raiseW b h.counter.toNat).hp with lastCtr := h.counter } }

/-- The state once a command is answered, with the block its execution left. -/
def answered (s : State) (op : Nat) (h : Cmd) (b : Block) (a : Ans) : State := became s (answer b op h a)

end Sys2Proof.Machine
end

