-- ==== Sys2Proof/Certificates/Slice0/Obligations.lean ====
section
/-!
DEFINITION. The statements of this row about the module's commands, for the provers. That an instruction of a unit comes as
a command is the model's choice (log 4), and every statement about an instruction rests on it.
-/
open Sys2Proof Sys2Proof.Machine

/-! ### Units -/

/-- ADD, SUB, AND, OR, XOR and ADDI in every legal word put their result into s[d], wrapping; so do SHL, SHR and SRA,
whose amount above 63 is clamped to 63 and counted once; the unit goes on (R140, R154). -/
def Obligations.IntegerAndShiftResults : Prop :=
  (∀ (s : State) (u : UnitId) (c : Nat) (o : Ops), Executes s u c →
      let i := img s.blk c u
      let x := sreg i (fa o)
      let y := if o.getLsbD 31 then (o.extractLsb' 0 16).signExtend 64 else sreg i (fb o)
      (legalInt false o = true →
        exec (.add u o) s = .next (ran s c u (setS i (fd o) (x + y))) ∧
        exec (.sub u o) s = .next (ran s c u (setS i (fd o) (x - y))) ∧
        exec (.and u o) s = .next (ran s c u (setS i (fd o) (x &&& y))) ∧
        exec (.or u o) s = .next (ran s c u (setS i (fd o) (x ||| y))) ∧
        exec (.xor u o) s = .next (ran s c u (setS i (fd o) (x ^^^ y)))) ∧
      exec (.addi u o) s = .next (ran s c u (setS i (fd o) (x + (o.extractLsb' 0 42).signExtend 64)))) ∧
  (∀ (s : State) (u : UnitId) (c : Nat) (o : Ops), Executes s u c → legalInt false o = true →
      let i := img s.blk c u
      let x := sreg i (fa o)
      let y := if o.getLsbD 31 then (o.extractLsb' 0 16).signExtend 64 else sreg i (fb o)
      let n := min y.toNat 63
      let k := if 63 < y.toNat then 1 else 0
      exec (.shl u o) s = .next (ran s c u (addClamps k (setS i (fd o) (x <<< n)))) ∧
      exec (.shr u o) s = .next (ran s c u (addClamps k (setS i (fd o) (x >>> n)))) ∧
      exec (.sra u o) s = .next (ran s c u (addClamps k (setS i (fd o) (x.sshiftRight n)))))

/-- MUL by form 0 to 2 and DIV by form 0 to 3 (R141): products by their exact value, quotients rounded toward zero, the
remainder with the dividend's sign; a divisor of 0 counts one clamp and gives the dividend, or remainder 0. Form 3 of
MUL is no instruction. -/
def Obligations.MultiplyDivideResults : Prop :=
  ∀ (s : State) (u : UnitId) (c : Nat) (o : Ops), Executes s u c →
    let i := img s.blk c u
    let x := sreg i (fa o)
    let y := if o.getLsbD 31 then (o.extractLsb' 0 16).signExtend 64 else sreg i (fb o)
    let form := (o.extractLsb' 16 2).toNat
    (form = 3 → legalMul o = false) ∧
    (legalMul o = true →
      exec (.mul u o) s = .next (ran s c u (setS i (fd o)
        (if form = 0 then x * y
         else if form = 1 then BitVec.ofInt 64 (x.toInt * y.toInt / 2 ^ 64)
         else BitVec.ofNat 64 (x.toNat * y.toNat / 2 ^ 64))))) ∧
    (legalDiv o = true → y ≠ 0 →
      exec (.div u o) s = .next (ran s c u (setS i (fd o)
        (if form = 0 then BitVec.ofInt 64 (x.toInt.tdiv y.toInt)
         else if form = 1 then x / y
         else if form = 2 then BitVec.ofInt 64 (x.toInt.tmod y.toInt)
         else x % y)))) ∧
    (legalDiv o = true → y = 0 →
      exec (.div u o) s = .next (ran s c u (addClamps 1 (setS i (fd o) (if form ≤ 1 then x else 0)))))

/-- LD of a mapped address whose bytes have come puts the extended bytes into its register, or zeros where a word of them
cannot be corrected, which counts as a refusal; ST to an address of this module stores its register's bytes there
(R142, R168). Choices of the model that it rests on: log 18, 20, 100. -/
def Obligations.LoadAndStore : Prop :=
  ∀ (s : State) (u : UnitId) (c : Nat) (o : Ops), Executes s u c →
    let i := img s.blk c u
    let a := sreg i (fa o) + (o.extractLsb' 0 32).signExtend 64
    let n := accessSize o
    (n = 32 → a.toNat % 32 = 0) → badByte s.blk c a n = none →
    (legalMem u o = true → missing s.blk c i a n = false →
      (∀ b1, meetRead s.blk c u a n = .ok b1 →
        exec (.ld u o) s = .next (became s (retire b1 c u (accessed (loadReg i o (loadedBytes b1 c i a n)))))) ∧
      (∀ b1, meetRead s.blk c u a n = .refused b1 →
        exec (.ld u o) s =
          .next (became s (retire b1 c u (countRefusal (loadReg i o (List.replicate n 0)) a 6))))) ∧
    (legalStore u o = true → faModule a = s.blk.geo.own → storeMet s.blk c a n = none → accessDone i = true →
      exec (.st u o) s = .next (became s (retire (storeOwn s.blk c a (storeData i o)) c u (accessed i))))

/-- BEQ, BNE, BLT and BGE continue at pc + 8 × offset when their test holds, else at the next word; JAL and JALR write pc
+ 8 and jump (R143). A unit of a built-in program shows no address (R162). -/
def Obligations.BranchAndJump : Prop :=
  ∀ (s : State) (u : UnitId) (c : Nat) (o : Ops), Executes s u c →
    let i := img s.blk c u
    let x := sreg i (fa o)
    let y := sreg i (fb o)
    let f := fdecode .f64 (freg i (fa o)).toNat
    let g := fdecode .f64 (freg i (fb o)).toNat
    let away (j : UnitImg) (t : U64) : State := became s (jumpTo s.blk c u j t)
    let go (p : Bool) : State :=
      if p then away i (i.pc + 8 * (o.extractLsb' 0 32).signExtend 64) else ran s c u i
    (legalBranch o = true →
      exec (.beq u o) s = .next (go (if o.getLsbD 36 then fEq f g else x == y)) ∧
      exec (.bne u o) s = .next (go (if o.getLsbD 36 then !fEq f g else x != y)) ∧
      exec (.blt u o) s = .next (go (if o.getLsbD 36 then fLt f g else if o.getLsbD 35 then x.ult y else x.slt y)) ∧
      exec (.bge u o) s = .next (go (if o.getLsbD 36 then fGe f g else if o.getLsbD 35 then !x.ult y else !x.slt y))) ∧
    (legalJal o = true →
      exec (.jal u o) s = .next (away (setS i (fd o) (i.pc + 8)) (i.pc + 8 * (o.extractLsb' 0 32).signExtend 64))) ∧
    (legalJalr o = true →
      let t := x + 8 * (o.extractLsb' 0 32).signExtend 64
      exec (.jalr u o) s = .next (away (addClamps (if t.toNat % 8 = 0 then 0 else 1) (setS i (fd o) (i.pc + 8)))
        (BitVec.ofNat 64 (t.toNat / 8 * 8))))

/-- The binary64 class rounds its exact result once, by the word's mode, and counts the events of the rounding (R37, R144,
R145). Choices of the model that it rests on: log 21. -/
def Obligations.Binary64Results : Prop :=
  ∀ (s : State) (u : UnitId) (c : Nat) (o : Ops), Executes s u c →
    let i := img s.blk c u
    let x := fdecode .f64 (freg i (fa o)).toNat
    let y := fdecode .f64 (freg i (fb o)).toNat
    let z := fdecode .f64 (freg i (fc o)).toNat
    let done (r : FRes) : State :=
      let w := finish .f64 (modeOf (bits o 30 2)) r
      ran s c u (countEv (setF i (fd o) (BitVec.ofNat 64 w.1)) w.2)
    (legalF2 o = true →
      exec (.fadd u o) s = .next (done (fAdd x y)) ∧ exec (.fsub u o) s = .next (done (fSub x y)) ∧
      exec (.fmul u o) s = .next (done (fMul x y)) ∧ exec (.fdiv u o) s = .next (done (fDiv x y))) ∧
    (legalFsqrt o = true → exec (.fsqrt u o) s = .next (done (fSqrt x))) ∧
    (legalFma o = true → exec (.fma u o) s = .next (done (fFma x y z))) ∧
    (legalFmm o = true →
      exec (.fmin u o) s = .next (done ⟨fMin x y, false, false⟩) ∧
      exec (.fmax u o) s = .next (done ⟨fMax x y, false, false⟩)) ∧
    (legalFcvt o = true → exec (.fcvt u o) s = .next (ran s c u (fcvtApply i o)))

/-- SYSR reads each register of R151; SYSW writes CTX.SEED for the next step, or XVEC with its low bits cleared; a write
of XRET in handler state resumes at XPC, or at XPC + 8 (R152, R154, R157). -/
def Obligations.SystemRegisters : Prop :=
  ∀ (s : State) (u : UnitId) (c : Nat) (o : Ops), Executes s u c →
    let b := s.blk
    let i := img b c u
    let x := sreg i (fa o)
    (legalSysr o = true →
      exec (.sysr u o) s = .next (ran s c u (setS i (fd o) (sysValue b c u i (o.extractLsb' 0 12).toNat)))) ∧
    (legalSysw o = true → (o.extractLsb' 0 12).toNat = 0x011 →
      exec (.sysw u o) s = .next (became s (retire (setCtx b c { ctxOf b c with
        seedPend := tins (ctxOf b c).seedPend (sysUnit u) x }) c u { i with seeds := i.seeds + 1 }))) ∧
    (legalSysw o = true → (o.extractLsb' 0 12).toNat = 0x020 →
      exec (.sysw u o) s = .next (ran s c u (addClamps (if x.toNat % 8 = 0 then 0 else 1)
        { i with xvec := BitVec.ofNat 64 (x.toNat / 8 * 8) }))) ∧
    (legalXret o = true → i.handler = true →
      exec (.syswXret u o) s = .next (became s (setImg b c u
        { addClamps (if x.toNat ≤ 1 then 0 else 1) i with
          handler := false, pc := if x = 0 then i.xpc else i.xpc + 8, run := .running })))

/-- An exception writes XPC, XCAUSE, XADDR and XINST, enters handler state and continues at XVEC; no other register and no
other unit changes. Raised while XVEC is 0 or in handler state it is a context fault: the unit halts with the four
registers set, the fault counts at the chip, the context halts, and the host receives event 0x01. So for an illegal
word of ADD (cause 1), and for any cause (R139, R156, R158). Choices of the model that it rests on: log 89. -/
def Obligations.Exceptions : Prop :=
  (∀ (s : State) (u : UnitId) (c : Nat) (o : Ops), Executes s u c → legalInt false o = false →
      let i := img s.blk c u
      i.xvec ≠ 0 → i.handler = false →
      exec (.add u o) s = .next (became s (setImg s.blk c u
        { i with rbuf := [], rbad := false, xpc := i.pc, xcause := 1, xaddr := 0, xinst := mkWord 1 0 o, handler := true, pc := i.xvec,
                 run := .running }))) ∧
  (∀ (s : State) (u : UnitId) (c : Nat) (o : Ops), Executes s u c → legalInt false o = false →
      let b := s.blk
      let i := img b c u
      i.xvec = 0 ∨ i.handler = true → (ctxOf b c).confidential = false →
      exec (.add u o) s = .next (became s (sendEvent
        (haltCtx (setImg { b with ft := { b.ft with chipFaults := satAdd b.ft.chipFaults 1 } } c u
          { i with rbuf := [], rbad := false, xpc := i.pc, xcause := 1, xaddr := 0, xinst := mkWord 1 0 o, run := .halted })
          c .haltedFault)
        { kind := 1, ctx := c, body := [BitVec.ofNat 64 (sysUnit u), 1, i.pc, 0] }))) ∧
  (∀ (b : Block) (c : Nat) (u : UnitId) (cause : Nat) (addr inst : U64),
      let i := img b c u
      let j : UnitImg := { i with rbuf := [], rbad := false, xpc := i.pc, xcause := BitVec.ofNat 4 cause, xaddr := addr, xinst := inst }
      i.builtin = false →
      (i.xvec ≠ 0 → i.handler = false →
        takeExc b c u cause addr inst = setImg b c u { j with handler := true, pc := i.xvec, run := .running }) ∧
      (i.xvec = 0 ∨ i.handler = true → (ctxOf b c).confidential = false →
        takeExc b c u cause addr inst = sendEvent
          (haltCtx (setImg { b with ft := { b.ft with chipFaults := satAdd b.ft.chipFaults 1 } } c u
            { j with run := .halted }) c .haltedFault)
          { kind := 1, ctx := c, body := [BitVec.ofNat 64 (sysUnit u), BitVec.ofNat 64 cause, i.pc, addr] }))

/-- What a read of an integer register sees after a write: the value at the register written, the old value elsewhere,
zero at s0, which discards writes (R135). -/
def Obligations.IntegerRegisterFile : Prop :=
  ∀ (i : UnitImg) (r q : BitVec 5) (x : U64),
    sreg (setS i r x) q = (if q = 0 then 0 else if q = r then x else sreg i q) ∧ setS i 0 x = i

/-- Frame of the integer, binary64, branch and jump instructions that retire: block b is what the instruction leaves
before what follows every command. Nothing but the executing unit's image changes, and of that no register but the
destination's file, the pc and the event counters. Where no unit waits and no debug step is due, b is the block of the
next state. Choices of the model that it rests on: log 5, 7, 21. -/
def Obligations.ScalarFrame : Prop :=
  ∀ (s t : State) (u : UnitId) (c : Nat) (o : Ops) (ins : Instr), Executes s u c →
    (ins ∈ [Instr.add u o, .sub u o, .and u o, .or u o, .xor u o, .shl u o, .shr u o, .sra u o] ∧ legalInt false o = true ∨
      ins = .mul u o ∧ legalMul o = true ∨ ins = .div u o ∧ legalDiv o = true ∨ ins = .addi u o ∨
      ins ∈ [Instr.beq u o, .bne u o, .blt u o, .bge u o] ∧ legalBranch o = true ∨
      ins = .jal u o ∧ legalJal o = true ∨ ins = .jalr u o ∧ legalJalr o = true ∨
      ins ∈ [Instr.fadd u o, .fsub u o, .fmul u o, .fdiv u o] ∧ legalF2 o = true ∨
      ins = .fsqrt u o ∧ legalFsqrt o = true ∨ ins = .fma u o ∧ legalFma o = true ∨
      ins ∈ [Instr.fmin u o, .fmax u o] ∧ legalFmm o = true) →
    exec ins s = .next t →
    ∃ b, t = became s b ∧
      let i := img s.blk c u
      let j := img b c u
      SameButUnits s.blk b ∧ OtherImages s.blk b c u ∧ (∀ k, rdKey b k = rdKey s.blk k) ∧
        (∀ q, q ≠ fd o → sreg j q = sreg i q ∧ freg j q = freg i q) ∧
        { j with s := i.s, f := i.f, pc := i.pc, run := i.run, cnt := i.cnt } = i ∧
        (waiters s.blk = [] → s.blk.chip.stepOnce = none → t.blk = b)

/-- Frame of ST to memory of this module whose code words hold no physical error: block b is what the instruction leaves
before what follows every command. Every byte of memory but those stored reads as before, and no register of any unit
changes but the pc. The stored bytes lie where the access check puts the address of the word's operands. Choices of
the model that it rests on: log 7, 18. -/
def Obligations.StoreFrame : Prop :=
  ∀ (s t : State) (u : UnitId) (c : Nat) (o : Ops) (key : Nat), Executes s u c → legalStore u o = true →
    let i := img s.blk c u
    let a := memAddr i o
    let n := accessSize o
    (n = 32 → a.toNat % 32 = 0) → badByte s.blk c a n = none → accessDone i = true →
    whereIs s.blk c a = .mem key → errWords s.blk key n = [] → exec (.st u o) s = .next t →
    ∃ b, t = became s b ∧
      let j := img b c u
      t.pending = s.pending ∧ OtherImages s.blk b c u ∧
        (∀ k, k < key ∨ key + n ≤ k → rdKey b k = rdKey s.blk k) ∧
        (∀ q, q < n → rdKey b (key + q) = (storeData i o).getD q 0) ∧
        { j with pc := i.pc, run := i.run, rbuf := i.rbuf, rbad := i.rbad } = i

/-- The word of an instruction carries its class in bits 63 to 58, its operation in bits 57 to 52 and its operands below.
The instruction that a word gives its unit has that very word, and every instruction is read back from its word with
all of its operand bits. A word whose class the table of R138 does not list, or whose operation names nothing, the
word of zeros among them, gives none: a unit that executes it raises cause 1 with the word in XINST (R137 to R139).
Choices of the model that it rests on: log 89. -/
def Obligations.InstructionWords : Prop :=
  (∀ (cls op : Nat) (o : Ops), cls < 64 → op < 64 →
    wordClass (mkWord cls op o) = cls ∧ wordOp (mkWord cls op o) = op ∧ wordOps (mkWord cls op o) = o) ∧
  (∀ (u : UnitId) (e : Nat) (w : U64) (i : Instr), decodeWord u e w = some i → encodeWord i = some (u, w) ∧ formOk i = true) ∧
  (∀ (u : UnitId) (w : U64) (i : Instr), encodeWord i = some (u, w) → formOk i = true →
    decodeWord u (elapsedOf i) w = some i) ∧
  (∀ (u : UnitId) (e : Nat) (w : U64),
    (wordClass w ∉ [0x01, 0x02, 0x03, 0x04, 0x05, 0x08, 0x10, 0x14, 0x18, 0x1C, 0x20] → decodeWord u e w = none) ∧
    (decodeWord u e w = none → ∀ (s : State) (c : Nat), Executes s u c →
      execWord u e w s = .next (became s (takeExc s.blk c u 1 0 w))))

/-! ### The queue -/

/-- A step takes the command at the front of the queue and is that command's `exec` on the block with the queue's rest;
with no command waiting the block idles. Choices of the model that it rests on: log 1. -/
def Obligations.StepRunsFrontCommand : Prop :=
  ∀ s : State, (∀ i : Instr, step { s with pending := i :: s.pending } = exec i s) ∧ (s.pending = [] → step s = .next s)

/-- No command stops the machine, and none touches the queue: every one answers a next state with the same queue. While a
context runs, no unit waits, no drain is under way and no debug step is due, nothing follows a command but its own
effect. Choices of the model that it rests on: log 5, 6. -/
def Obligations.EveryCommandCompletes : Prop :=
  (∀ (i : Instr) (s : State), ∃ t, exec i s = .next t ∧ t.pending = s.pending) ∧
  (∀ (a b : Block), b.running ≠ none → waiters b = [] → b.draining = false → b.chip.stepOnce = none → after a b = b)

/-! ### Short vectors -/

/-- VSETVL puts min(s[a], 128 ÷ w) into VL and s[d] (R147). VADD, VMUL, VFMA, VMIN and VMAX compute each of the first n
elements, n = min(VL, 128 ÷ w), by one rounding of the exact result, keep the other elements, and count the events of
the roundings and one clamp when VL exceeds 128 ÷ w; the unit is powered (R119, R146, R149). Choices of the model that
it rests on: log 21. -/
def Obligations.ShortVectorResults : Prop :=
  ∀ (s : State) (t : Fin 1152) (c : Nat) (o : Ops), Executes s (.tile t) c →
    let u := UnitId.tile t
    let i := img s.blk c u
    let b := svuTouch s.blk u
    let f := vFmt o
    let m := 128 / fmtWidth f
    let n := min i.vl.toNat m
    let e (r : BitVec 5) (k : Nat) : FVal := fdecode f (vElem f (vreg i r) k)
    let done (g : Nat → FRes) (x : Out3) : Prop :=
      ∃ d, x = .next (became s (retire b c u (countEv (setV i (fd o) d)
          (((List.range n).map fun k => (finish f (vMode o) (g k)).2).foldl evAdd
            (evClamps (if m < i.vl.toNat then 1 else 0)))))) ∧
        ∀ k < m, vElem f d k =
          if k < n then (finish f (vMode o) (g k)).1 % 2 ^ fmtWidth f else vElem f (vreg i (fd o)) k
    (legalVsetvl o = true →
      let x := min (sreg i (fa o)).toNat m
      exec (.vsetvl u o) s =
        .next (became s (retire b c u { setS i (fd o) (BitVec.ofNat 64 x) with vl := BitVec.ofNat 8 x }))) ∧
    (legalV2 o = true →
      done (fun k => fAdd (e (fa o) k) (e (fb o) k)) (exec (.vadd u o) s) ∧
      done (fun k => fMul (e (fa o) k) (e (fb o) k)) (exec (.vmul u o) s)) ∧
    (legalVfma o = true →
      done (fun k => fFma (e (fa o) k) (e (fb o) k) (e (fc o) k)) (exec (.vfma u o) s)) ∧
    (legalVmm o = true →
      done (fun k => ⟨fMin (e (fa o) k) (e (fb o) k), false, false⟩) (exec (.vmin u o) s) ∧
      done (fun k => ⟨fMax (e (fa o) k) (e (fb o) k), false, false⟩) (exec (.vmax u o) s))

/-- VLD of mapped, correctable bytes puts them into the first n elements, or one element into each of them; an
uncorrectable word of memory gives zeros and counts a refusal. VST stores the first n elements. Both power the unit
(R119, R142, R148, R268). VRED writes element 0 of v[d] with the sum, rounded once, or the least or greatest of the
first n elements; with n = 0 nothing is written (R150). Choices of the model that it rests on: log 18, 26, 100. -/
def Obligations.ShortVectorMemoryAndReduction : Prop :=
  (∀ (s : State) (t : Fin 1152) (c : Nat) (o : Ops), Executes s (.tile t) c →
      let u := UnitId.tile t
      let i := img s.blk c u
      let f := vFmt o
      let n := min i.vl.toNat (128 / fmtWidth f)
      let k := if 128 / fmtWidth f < i.vl.toNat then 1 else 0
      let es := fmtWidth f / 8
      let a := vAddr i o
      let one := bit o 25
      let len := if one then (if n = 0 then 0 else es) else n * es
      let put (x : List Byte) : UnitImg := countEv (accessed (setV i (fd o) ((List.range n).foldl (fun d j =>
        vSetElem f d j (leNat ((x.drop (if one then 0 else j * es)).take es))) (vreg i (fd o))))) (evClamps k)
      (legalVld o = true → badByte s.blk c a len = none → missing s.blk c i a len = false →
        ∀ b1,
          (meetRead (svuTouch s.blk u) c u a len = .ok b1 →
            exec (.vld u o) s = .next (became s (retire b1 c u (put (loadedBytes b1 c i a len))))) ∧
          (meetRead (svuTouch s.blk u) c u a len = .refused b1 →
            exec (.vld u o) s =
              .next (became s (retire b1 c u (countRefusal (put (List.replicate len 0)) a 6))))) ∧
      (legalVst o = true → badByte s.blk c a (n * es) = none → faModule a = s.blk.geo.own →
        storeMet (svuTouch s.blk u) c a (n * es) = none → accessDone i = true →
        exec (.vst u o) s = .next (became s (retire
          (storeOwn (svuTouch s.blk u) c a ((List.range n).flatMap fun j => leBytes es (vElem f (vreg i (fd o)) j))) c u
          (accessed (countEv i (evClamps k))))))) ∧
  (∀ (s : State) (t : Fin 1152) (c : Nat) (o : Ops), Executes s (.tile t) c → legalVred o = true →
      let u := UnitId.tile t
      let i := img s.blk c u
      let b := svuTouch s.blk u
      let f := vFmt o
      let m := 128 / fmtWidth f
      let n := min i.vl.toNat m
      let k := if m < i.vl.toNat then 1 else 0
      let r := finish f (vMode o)
        (vReduce (o.extractLsb' 24 2).toNat ((List.range n).map fun j => fdecode f (vElem f (vreg i (fa o)) j)))
      exec (.vred u o) s = .next (became s (retire b c u
        (if n = 0 then countEv i (evClamps k)
         else countEv (setV i (fd o) (vSetElem f (vreg i (fd o)) 0 r.1)) (evAdd r.2 (evClamps k))))))

/-! ### Tensor instructions -/

/-- CVT, its roll form, EWU, EWB and TRED complete: their products are computed from what their reads met, written through
the write path of their destination, and the instruction retires; a sum of TRED passes its residue checks first (R59,
R66, R113, R169, R178 to R182). Choices of the model that it rests on: log 25, 27, 31. -/
def Obligations.LaneInstructionsComplete : Prop :=
  ∀ (s : State) (t : Fin 1152) (c : Nat) (o : Ops), Executes s (.tile t) c →
    let u := UnitId.tile t
    let i := img s.blk c u
    let b := s.blk
    let dst := destRanges b c i (tdOf i o).1
    let one := readsOf b u o (wmode o) [tsOf] c i
    let two := readsOf b u o (wmode o) [tsOf, tbOf] c i
    let rec_ : List (U64 × Nat) := if (rollRecord i o).1 = 0 then [] else [((rollRecord i o).1, 5120)]
    let idx : List (U64 × Nat) := if bits o 3 3 = 6 then
        [(sramAddr b u (topkOffset i o).1,
          4 * (topK (extX (tsOf i o).1) (sreg i (fs3 o))).1 * min (extY (tsOf i o).1) (extY (tdOf i o).1))] else []
    (legalCvt o = true → TensorReady b c u 0x01 o 0 one dst →
      exec (.cvt u o) s = .next (tensored s c u 0x01 o 0 one (cvtRun u o c i))) ∧
    (legalRoll o = true → TensorReady b c u 0x01 o 0 rec_ rec_ →
      exec (.cvtRoll u o) s = .next (tensored s c u 0x01 o 0 rec_ (rollRun o c i))) ∧
    (legalEwu o = true → TensorReady b c u 0x02 o 0 (ewuReads b u o c i) dst →
      exec (.ewu u o) s = .next (tensored s c u 0x02 o 0 (ewuReads b u o c i) (ewuRun u o c i))) ∧
    (legalEwb o = true → TensorReady b c u 0x03 o 0 two dst →
      exec (.ewb u o) s = .next (tensored s c u 0x03 o 0 two (ewbRun u o c i))) ∧
    (legalTred o = true → TensorReady b c u 0x04 o (tredGroups o i) one (dst ++ idx) →
      exec (.tred u o) s = .next (tensored s c u 0x04 o (tredGroups o i) one (tredRun u o c i)))

/-- The value CVT, EWU and MSKX write for a covered element: the source's value; the function of the instruction of it,
rounded once to the computation format; the value times s1 or s0 by the element's mask bit (R59, R177, R178, R185).
Choices of the model that it rests on: log 25. -/
def Obligations.LaneElementValues : Prop :=
  ∀ (b : Block) (u : UnitId) (c : Nat) (i : UnitImg) (o : Ops),
    let d := tdOf i o
    let s := tsOf i o
    let v := coverMin (extents d.1) (extents s.1)
    let cf := compFmt [d.1, s.1]
    let el (k : Coord) := elemValue b c i s.1 k
    let out (m : WMode) (f : FVal → Coord → FVal × Ev) : TOut := writeView b c u i d.1 m fun k =>
      if k.x < v.1.x ∧ k.y < v.1.y ∧ k.p < v.1.p ∧ k.q < v.1.q then
        some (.v (f (el k).1 k).1 false, evAdd (el k).2 (f (el k).1 k).2)
      else none
    cvtRun u o c i b =
      (tOutAppend { ev := evClamps (d.2 + s.2 + v.2) } (out (wmode o) fun x _ => (x, {})), i) ∧
    (bits o 3 5 ≠ 0x11 → ewuRun u o c i b =
      (tOutAppend { ev := evClamps (d.2 + s.2 + v.2) }
        (out (wmode o) fun x _ => compRound cf (ewuFn (bits o 3 5) x (scalarG cf i (bits o 8 5)))), i)) ∧
    mskxRun u o c i b =
      (tOutAppend { ev := evClamps (d.2 + s.2 + v.2 + (packAddr i o).2) }
        (out { mode := modeOf (bits o 0 2), sat := bit o 2, tid := fs2 o, frame := fs3 o } fun x k =>
          compRound cf (fMul x (if packBit b c i (packAddr i o).1 s.1 k then scalarG cf i (bits o 3 5)
            else scalarG cf i (bits o 8 5)))), i)

/-- MSKP, MSKX, TXP, MOVB, GTH, SCT, SCTA, HPUSH and HPOP complete (R88 to R98, R184, R185, R188, R189). SCTA needs its
seams to fit (R122); a push must fit below HEAP.LIMIT and a pop must stay at or above HEAP.BASE. Choices of the model
that it rests on: log 33. -/
def Obligations.CopyInstructionsComplete : Prop :=
  ∀ (s : State) (t : Fin 1152) (c : Nat) (o : Ops), Executes s (.tile t) c →
    let u := UnitId.tile t
    let i := img s.blk c u
    let b := s.blk
    let td := (tdOf i o).1
    let ts := (tsOf i o).1
    let a := sourceRanges b c i ts
    let heap := readHeap b c u i o
    let pack := packRange i o ts
    let ready (op : Nat) (rs ws : List (U64 × Nat)) : Prop := TensorReady b c u op o 0 rs ws
    let ends (op : Nat) (rs : List (U64 × Nat)) (run : Block → TOut × UnitImg) (x : Out3) : Prop :=
      x = .next (tensored s c u op o 0 rs run)
    (legalMskp o = true → ready 0x05 a [pack] → ends 0x05 a (mskpRun o c i) (exec (.mskp u o) s)) ∧
    (let rs := readsOf b u o (mskxMode o) [tsOf] c i ++ [pack]
     legalMskx o = true → ready 0x06 rs (destRanges b c i td) → ends 0x06 rs (mskxRun u o c i) (exec (.mskx u o) s)) ∧
    (legalCopy o = true → ready 0x07 (txpReads b u o c i) (copyRanges b o c i) →
      ends 0x07 (txpReads b u o c i) (txpRun u o c i) (exec (.txp u o) s)) ∧
    (legalCopy o = true → ready 0x08 (copyReads b u o c i) (copyRanges b o c i) →
      ends 0x08 (copyReads b u o c i) (movbRun u o c i) (exec (.movb u o) s)) ∧
    (legalList o = true → ready 0x09 (gthReads b u o c i) (listWrites b o c i) →
      ends 0x09 (gthReads b u o c i) (gthRun u o c i) (exec (.gth u o) s)) ∧
    (legalList o = true → ready 0x0A (sctReads b u o c i) (listWrites b o c i) →
      ends 0x0A (sctReads b u o c i) (sctRun u o c i) (exec (.sct u o) s)) ∧
    (legalScta o = true → seamsLack i (sctaNeed b c u i o) = false →
      ready 0x0B (sctaReads b u o c i) (rangesOfList o i (destRanges b c i td)) →
      ends 0x0B (sctaReads b u o c i) (fun v => spilled i (sctaNeed v c u i o) (sctaRun u o c i v))
        (exec (.scta u o) s)) ∧
    (legalHpush o = true → heap.top.toNat + heapSize b c i ts ≤ heap.limit.toNat →
      let rs := heapRecord b u i o ++ recordRange ts ++ (viewRanges ts ++ heapArray b c i ts)
      ready 0x0C rs [(heap.top, heapSize b c i ts)] → ends 0x0C rs (hpushRun u o c i) (exec (.hpush u o) s)) ∧
    (legalHpop o = true → heap.base.toNat + heapSize b c i td ≤ heap.top.toNat →
      let z := heapSize b c i td
      let rs := heapRecord b u i o ++ recordRange td ++ ((heap.top - BitVec.ofNat 64 z, z) :: mapReads b u td)
      ready 0x0D rs (viewRanges td ++ heapArray b c i td) → ends 0x0D rs (hpopRun u o c i) (exec (.hpop u o) s))

/-- MMA and the tally instructions complete. TIE_OPEN binds a handle to an empty entry of the descriptor and use count it
names; a form that holds seams needs them to fit (R120 to R122, R172 to R175, R190, R191). Choices of the model that
it rests on: log 23. -/
def Obligations.TallyInstructionsComplete : Prop :=
  ∀ (s : State) (t : Fin 1152) (c : Nat) (o : Ops), Executes s (.tile t) c →
    let u := UnitId.tile t
    let i := img s.blk c u
    let b := s.blk
    let td := (tdOf i o).1
    let rs := sourceRanges b c i (tsOf i o).1 ++ sourceRanges b c i (tbOf i o).1 ++
      (if bit o 4 then viewRanges td else []) ++ destReads b c u i td (mmaMode o)
    let n := (mmaArray u o).blocks i
    (legalMma o = true → seamsLack i (mmaNeed i o) = false →
      TensorReady b c u 0x00 o n rs (if bits o 5 2 = 3 then [] else destRanges b c i td) →
      exec (.mma u o) s = .next (tensored s c u 0x00 o n rs fun v => spilled i (mmaNeed i o) (mmaRun u o c i v))) ∧
    (legalTieOpen o = true → TensorReady b c u 0x0E o 0 [] [] →
      let h := bits o 2 6
      let j : UnitImg := { i with ties := tdel i.ties h }
      let n := elemTotal td
      seamsLack j n = false →
      exec (.tieOpen u o) s = .next (tensored s c u 0x0E o 0 [] fun _ => spilled j n
        ({ ev := evClamps ((tdOf i o).2 + (useCount (sreg i (fs1 o))).2 + (if (tlook i.ties h).isSome then 1 else 0)) },
         { j with ties := tins j.ties h {
             td := treg i (ft1 o), want := (useCount (sreg i (fs1 o))).1, got := 0, count := n, seams := [] } }))) ∧
    (legalTieAdd o = true →
      let rs := if (tlook i.ties (bits o 2 6)).isSome then sourceRanges b c i (tsOf i o).1 else []
      TensorReady b c u 0x0E o 0 rs [] →
      exec (.tieAdd u o) s = .next (tensored s c u 0x0E o 0 rs (tieAddRun o c i))) ∧
    (legalTiex o = true →
      let x := tlook i.ties (bits o 3 6)
      let d := (x.map fun e => (readDesc true e.td).1)
      let rs := (d.map fun y => destReads b c u i y (wmode o)).getD []
      TensorReady b c u 0x0F o 0 rs ((d.map (destRanges b c i)).getD []) →
      exec (.tiex u o) s = .next (tensored s c u 0x0F o 0 rs (tiexRun u o c i)))

/-! ### Remote operations and waiting -/

/-- PUT, PUTS, GET and RADD with mapped local ranges and room in the port start one operation of requests cut at the 256-
byte boundaries of the other side, count the clamps of the operands they use, and retire (R153, R192 to R195, R205).
Choices of the model that it rests on: log 19, 32. -/
def Obligations.RemoteOperationsStart : Prop :=
  ∀ (s : State) (u : UnitId) (c : Nat) (o : Ops) (b1 : Block) (x : List Byte), Executes s u c →
    let b := s.blk
    let i := img b c u
    let a := sreg i (fa o)
    let d := sreg i (fb o)
    let count := sreg i (fc o)
    let n := byteCount count
    let ctr := getCounter b i o
    let kind := bits o 0 4
    let elems := raddCount kind count
    let to_ := alignTo (raddDest kind) d
    let k := if kind = 5 then raddK (sreg i (fe o)) else (0, 0)
    let from_ := (localOp b a).1
    let dst := (localOp b d).1
    let foreign (y : U64) : Nat := if count = 0 ∨ faModule y = b1.geo.own then 0 else 1
    (legalPut o = true → RemoteReady b c u [(from_, n.1)] (from_, n.1) b1 x →
      exec (.put u o) s = .next (became s (startRetire b1 c u (foreign a + n.2) .plain (putPieces d x)))) ∧
    (legalPuts o = true → RemoteReady b c u [(from_, n.1)] (from_, n.1) b1 x →
      exec (.puts u o) s = .next (became s (startRetire b1 c u (foreign a + n.2 + (putsCounter i o).2)
        (.signal (putsCounter i o).1 (sreg i (fd o))) (putPieces d x)))) ∧
    (legalGet o = true →
      RemoteReady b c u ((dst, n.1) :: (ctr.1.map fun q => (q, 8)).toList) (dst, 0) b1 x →
      let to1 := (localOp b1 d).1
      exec (.get u o) s = .next (became s (startRetire b1 c u (foreign d + n.2 + (getCounter b1 i o).2)
        (.get (getCounter b1 i o).1) ((cuts a n.1).map fun p => (p.1, .get p.2, to1 + (p.1 - a)))))) ∧
    (legalRadd o = true → RemoteReady b c u [raddSrc b o i] (raddSrc b o i) b1 x →
      exec (.radd u o) s = .next (became s (startRetire b1 c u
        (if elems.1 = 0 then 0 else foreign a + elems.2 + to_.2 + k.2) .plain
        (raddPieces kind (bits o 4 4) k.1 to_.1 elems.1 x))))

/-- WAITC tests its counter word: met, it retires with 0; not met with a timeout of 0, with 1; else it waits. A word that
the memory code cannot correct is tested by nothing. A wake tests again, a timeout retires with 1, and a wake or
timeout of a gated tile counts in GATE_WAKE (R125 to R128, R197, R268). Choices of the model that it rests on: log 5,
18, 34, 98. -/
def Obligations.CounterWaits : Prop :=
  ∀ (s : State) (u : UnitId) (c : Nat),
    (∀ o : Ops, Executes s u c → legalWaitc o = true →
      let b := s.blk
      let i := img b c u
      let a := (waitcAddr b i o).1
      let n := waitcLimit i o
      let w := mkWord 20 0x04 o
      badByte b c a 8 = none →
      (∀ b1, meetRead b c u a 8 = .ok b1 →
        let x := leNat (readBytes b1 c i a 8) % 2 ^ 64
        let t := (sreg i (fb o)).toNat
        let cond := (o.extractLsb' 0 2).toNat
        let met := if cond = 0 then t ≤ x else if cond = 1 then x = t else x ≠ t
        let done (r : U64) : State := became s (retire (takeWake b1 u) c u
          (addClamps ((waitcAddr b1 i o).2 + n.2) (setS i (fd o) r)))
        (met → exec (.waitc u o) s = .next (done 0)) ∧
        (¬ met → n.1 = 0 → exec (.waitc u o) s = .next (done 1)) ∧
        (¬ met → n.1 ≠ 0 → exec (.waitc u o) s = .next (became s (park b1 c u i .counter w)))) ∧
      (∀ b1, meetRead b c u a 8 = .refused b1 →
        exec (.waitc u o) s = .next (became s (park b1 c u i .counter w)))) ∧
    (∀ w : U64, Up s → waitCtx s.blk u = some (c, .counter, w) →
      let o : Ops := w.setWidth 52
      let i := img s.blk c u
      exec (.waitcTimeout u) s = .next (became s (waitcRetire (gateWake s.blk u) c u i o 1)) ∧
      exec (.tileWake u) s = .next (became s (waitcTest (gateWake (takeWake s.blk u) u) c u i o w)))

/-- FENCE, once no operation of its scope is open, writes the count of refusals of its scope and forgets them; COLL queues
its request block at the region's engine and writes its sequence number; LGF combines a program field (R198, R199,
R203). Choices of the model that it rests on: log 18, 19. -/
def Obligations.FenceCollectiveAndRecordFields : Prop :=
  ∀ (s : State) (c : Nat) (o : Ops),
    (∀ u : UnitId, Executes s u c → legalFence o = true →
      let i := img s.blk c u
      let mine (m : BitVec 15) : Bool := !o.getLsbD 0 || faModule (sreg i (fa o)) == m
      scopeOpen s.blk c u mine = false →
      exec (.fence u o) s = .next (ran s c u
        (setS { i with refus := i.refus.filter fun e => !mine (BitVec.ofNat 15 e.1) } (fd o)
          (BitVec.ofNat 64 (((i.refus.filter fun e => mine (BitVec.ofNat 15 e.1)).map Prod.snd).foldl (· + ·) 0))))) ∧
    (∀ t : Fin 1152, Executes s (.tile t) c →
      let u := UnitId.tile t
      let i := img s.blk c u
      let g := engineOf u
      let e := img s.blk c g
      let a := collBlock s.blk i o
      (legalColl o = true → badByte s.blk c a.1 64 = none → e.colls.length < 64 →
        (∀ b1, meetRead s.blk c u a.1 64 = .ok b1 →
          exec (.coll u o) s = .next (became s (retire
            (setImg b1 c g { e with
              colls := e.colls ++ [readCollReq e.collSeq (readBytes b1 c i a.1 64)], collSeq := e.collSeq + 1 })
            c u (countEv (setS i (fd o) (BitVec.ofNat 64 e.collSeq)) (evClamps a.2))))) ∧
        (∀ b1, meetRead s.blk c u a.1 64 = .refused b1 →
          exec (.coll u o) s = .next (became s (park b1 c u i .room (mkWord 20 0x08 o))))) ∧
      (legalLgf o = true →
        let n := (o.extractLsb' 0 4).toNat
        let x := if o.getLsbD 4 then freg i (fa o) else sreg i (fa o)
        let k := ctxOf s.blk c
        exec (.lgf u o) s = .next (became s (retire
          (setCtx s.blk c { k with lgf := tins k.lgf n (lgfCombine n t.val (tlook k.lgf n) x) }) c u i))))

/-! ### Closing a step -/

/-- STEPEND waits for the step; STEP_CLOSE closes it once the conditions of R204 hold; LEDGER_RING_WAIT_END closes one
that waited for room; PAIR_CHECK compares the messages once both have come (R204, R400, R413, R414). The step limit
halts the running context with event 0x04; no record is written, and no other context is touched. In a pair check the
check fails first (R204, R426). Choices of the model that it rests on: log 53, 57, 98. -/
def Obligations.StepsClose : Prop :=
  (∀ (s : State) (c : Nat),
      (∀ (t : Fin 1152) (o : Ops), Executes s (.tile t) c → legalStepend o = true →
        exec (.stepend (.tile t) o) s = .next (became s
          (park s.blk c (.tile t) (img s.blk c (.tile t)) .stepEnd (mkWord 0x1C 0x01 o)))) ∧
      (Up s → s.blk.running = some c →
        let x := ctxOf s.blk c
        let m := lcPartner s.blk x
        let u := pairTile s.blk c
        (x.phase = .none → stepReady s.blk c = true → exec .stepClose s = .next (became s (closeStep s.blk c))) ∧
        (x.phase = .ringWait → exec .ledgerRingWaitEnd s = .next (became s (closeStep s.blk c))) ∧
        (x.phase = .pairWait → x.pairQ ≤ lcPairCnt s.blk x →
          scopeOpen s.blk c u (fun n => n.toNat == m) = false →
          let met := readOwn s.blk (lcBase x + 0x40 + 64 * (x.pairQ % 2)) 56
          let i := img met.1.1 c u
          let b := setImg met.1.1 c u { i with refus := tput i.refus 0 m 0 }
          let same := tget i.refus 0 m = 0 ∧ met.2 = (pairMessage x).take 56
          (∀ e, met.1.2 = some e → exec .pairCheck s = .next (became s (memFault met.1.1 e))) ∧
          (met.1.2 = none → ¬ same → exec .pairCheck s = .next (became s (pairFail b c))) ∧
          (met.1.2 = none → same → exec .pairCheck s = .next (became s (afterStep (finishStep b c) c x.step.toNat
            x.record x.replay true)))))) ∧
  (∀ (s : State) (c : Nat), Up s → s.blk.running = some c →
      let x := ctxOf s.blk c
      let e : Event := { kind := 4, ctx := c, body := [x.step.setWidth 64] }
      (x.phase ≠ .pairWait → exec .stepLimitExpiry s =
        .next (became s (sendEvent (haltCtx (setCtx s.blk c
            { x with phase := if x.phase = .pairFailed then .pairFailed else .none }) c .haltedFault) e))) ∧
      (x.phase = .pairWait → exec .stepLimitExpiry s = .next (became s (sendEvent (pairFail s.blk c) e))))

/-! ### Derricks -/

/-- DSUB to a region with a Derrick queues a submission and writes its number, counting from 0 for each unit and Derrick;
it waits at issue while 256 are queued. DPOLL writes the status of an environment of the context, or 0 with one clamp.
For a region without a Derrick both write all ones with one clamp (R153, R200, R202, R205, R228). Choices of the model
that it rests on: log 18, 39. -/
def Obligations.DerrickSubmitAndPoll : Prop :=
  ∀ (s : State) (t : Fin 1152) (c : Nat) (o : Ops), Executes s (.tile t) c →
    let u := UnitId.tile t
    let b := s.blk
    let i := img b c u
    let k := regionOp (sreg i (fe o))
    let e := envOp (sreg i (fa o))
    let here := b.geo.derricks.getLsbD k.1
    (legalDsub o = true →
      (here = false → exec (.dsub u o) s =
        .next (ran s c u (addClamps (1 + k.2) (setS i (fd o) (BitVec.allOnes 64))))) ∧
      (here = true → ((dsubRanges b i o).filterMap fun r => badByte b c r.1 r.2) = [] →
        let d := drkOf b k.1
        ((stored d).length + d.subs.length < 256 →
          let n := tget i.subs 0 k.1
          let q : DrkSub :=
            { ctx := c, step := (ctxOf b c).step.toNat, tile := t.val, sub := n, addr := (localOp b (sreg i (fa o))).1,
              len := (dsubLen (sreg i (fb o))).1, counter := (dsubCounter b (sreg i (fc o))).1 }
          exec (.dsub u o) s = .next (became s (retire (setDrk b k.1 { d with subs := d.subs ++ [q] }) c u
            (addClamps (dsubClamps b i o)
              (setS { i with subs := tput i.subs 0 k.1 (n + 1) } (fd o) (BitVec.ofNat 64 n)))))) ∧
        (256 ≤ (stored d).length + d.subs.length →
          exec (.dsub u o) s = .next (became s (park b c u i .room (mkWord 0x18 0x00 o)))))) ∧
    (legalDpoll o = true →
      let r : U64 × Nat := if here = false then (BitVec.allOnes 64, 1)
        else match tlook (drkOf b k.1).envs (envKey c e.1) with
          | some x => (x.status, e.2)
          | none => (0, 1 + e.2)
      exec (.dpoll u o) s = .next (ran s c u (addClamps (r.2 + k.2) (setS i (fd o) r.1))))

/-- A round runs by its operations: DNEXT starts the round that is ready, or waits, or writes 1; DAPPLY applies its
batches in order; DPREP sets up its solves; DITER does one iteration of each, of an adjoint round backwards; DSTAT
reports. The work store holds no error and memory's words can be read (R227, R245 to R251, R259, R261). The timeout of
a waiting DNEXT writes 1; DFIN ends the current round: outputs and status of every solve, the round's counts, then its
completion counter; BATCH_ENQUEUE copies the oldest submission into a free place of the queue area and adds 1 to its
counter, and copies nothing that memory cannot give (R200, R229, R246, R250, R256, R257, R261). Choices of the model
that it rests on: log 5, 18, 36, 37, 38, 39, 46. -/
def Obligations.DerrickRounds : Prop :=
  (∀ (s : State) (r : Fin 12) (c : Nat) (o : Ops), Executes s (.derrick r) c →
      let u := UnitId.derrick r
      let b := s.blk
      let i := img b c u
      let k := r.val
      (legalDnext o = true →
        (∀ x, readyRound b c k = some x → exec (.dnext u o) s = .next (became s (retire (startRound b c k x) c u
          (addClamps (dnextLimit i o) (setS (img (startRound b c k x) c u) (fd o) 0))))) ∧
        (readyRound b c k = none → sreg i (fc o) = 0 → exec (.dnext u o) s = .next (ran s c u (setS i (fd o) 1))) ∧
        (readyRound b c k = none → sreg i (fc o) ≠ 0 →
          exec (.dnext u o) s = .next (became s (park b c u i .round (mkWord 0x18 0x10 o))))) ∧
      (legalDstat o = true → ∀ elapsed, ∃ w : U64,
        exec (.dstat u o elapsed) s = .next (ran s c u (setS i (fd o) w)) ∧
        (curRound b c k = none → w = 0) ∧
        (∀ q, curRound b c k = some q → w.toNat % 2 ^ 9 = iterLimit b c k q % 2 ^ 9 ∧
          (w.getLsbD 9 = true ↔ q.spec.deadline ≠ 0 ∧ q.spec.deadline < elapsed))) ∧
      (legalNone o = true → ∀ q, curRound b c k = some q →
        (drkOf b k).storeErrs = [] →
        (q.applied = false → ∀ b1 recs, readBatches k b (sortBatches q.batches) = (b1, some recs) →
          let a := recs.foldl (applyRec c k) { d := drkOf b1 k, b := b1 }
          let b2 := setRound (setDrk a.b k a.d) c k fun x => { x with cur := some { q with applied := true } }
          a.fault = false → exec (.dapply u o) s =
            .next (became s (retire b2 c u (drkCount (img b2 c u) (a.clamps + applySpecs q.round q.batches) a.sats 0 0)))) ∧
        (q.applied = true → q.prepped = false →
          let l := solveList (drkOf b k) c q.spec
          let t := if q.spec.mode = 3 then adjointEntry (tget (drkOf b k).ctx {} c) q.spec else none
          ∀ b1, readRanges b (prepRanges l.1 t) = (b1, true) →
          let b2 := setRound b1 c k fun x => { x with cur := some { q with
            prepped := true
            work := l.1.map fun y =>
              if q.spec.mode = 3 then adjointEnv t y.2.2 y.2.1 y.1 else prepEnv y.2.2 y.2.1 y.1 q.spec } }
          exec (.dprep u o) s = .next (became s (retire b2 c u (drkCount (img b2 c u) l.2 0 0 0)))) ∧
        (q.prepped = true → exec (.diter u o) s = .next (became s (retire
          (setRound b c k fun x => { x with cur := some { q with
            j := q.j + 1, stat := none
            work := q.work.map (if q.spec.mode = 3 then backIterate else iterate) } }) c u i))))) ∧
  (∀ (s : State) (r : Fin 12),
      let u := UnitId.derrick r
      let b := s.blk
      let k := r.val
      (∀ c w, Up s → waitCtx b u = some (c, .round, w) →
        let o : Ops := w.setWidth 52
        let i := img b c u
        exec (.dnextTimeout u) s = .next (became s (retire b c u
          (if i.builtin then countEv i (evClamps 0) else addClamps (dnextLimit i o) (setS i (fd o) 1))))) ∧
      (∀ c o elapsed q, Executes s u c → legalDfin o = true → curRound b c k = some q → portFull (img b c u) = false →
        (drkOf b k).storeErrs = [] →
        let j := min (sreg (img b c u) (fa o)).toNat 256
        let n := if 256 < (sreg (img b c u) (fa o)).toNat then 1 else 0
        let cuts_ := q.spec.cut && q.spec.mode != 3
        let late := !cuts_ && !(ctxOf b c).replay && deadlinePassed q elapsed
        let t := tapeSide b c k q j
        let x : SolveOut := { late := late, noTape := t.noTape, adjoint := q.spec.mode == 3, reached := j,
                              requested := q.spec.iters, round := q.round }
        let z := q.work.foldl (finishSolve c k (ctxOf b c).step.toNat x t.used) (t.b, t.good)
        z.2 = true →
        let b1 := setRound z.1 c k fun y =>
          { y with cur := none, next := q.round + 1, cut := newCut b c k q j, rounds := y.rounds + 1,
                   late := y.late + late.toNat }
        let d := drkOf b1 k
        let b2 := setDrk b1 k { d with roundsRun := satAdd d.roundsRun 1, solves := satAdd d.solves q.work.length }
        let b3 := if q.spec.counter = 0 then b2 else startOp b2 c u .plain [(q.spec.counter, .signal q.spec.inc, 0)]
        exec (.dfin u o elapsed) s = .next (became s (retire b3 c u (addClamps n (img b3 c u))))) ∧
      (∀ q rest p, Up s → (drkOf b k).subs = q :: rest → freePlace (drkOf b k) = some p →
        let v := UnitId.tile (Fin.ofNat 1152 q.tile)
        let taken (z : Block) : Block := setDrk z k { drkOf z k with subs := rest }
        ∃ e : Block, exec (.batchEnqueue r) s = .next (became s (settleAll e)) ∧
          (∀ b1, meetRead b q.ctx v q.addr q.len = .refused b1 → e = taken b1) ∧
          (∀ b1, meetRead b q.ctx v q.addr q.len = .ok b1 →
            let x := readBytes b1 q.ctx (img b1 q.ctx v) q.addr q.len
            let y : Batch := { ctx := q.ctx, step := q.step, tile := q.tile, sub := q.sub, place := p, len := q.len,
                               round := leNat (x.take 2), specs := batchSpecs x }
            let d := drkOf (taken b1) k
            let dc := tget d.ctx {} q.ctx
            let begun := q.step = (ctxOf (taken b1) q.ctx).step.toNat ∧
              (y.round < dc.next ∨ dc.cur.isSome = true ∧ y.round = dc.next)
            let kept := (writeMem (setDrk (taken b1) k { d with queue := d.queue ++ [y] }) (queueBase k p) (queueBase k p) x).1
            (q.counter = 0 → q.len ≠ 0 → ¬ begun → e = kept) ∧
            (q.counter = 0 → q.len ≠ 0 → begun → e = drkClamp (taken b1) q.ctx k 1) ∧
            (q.counter = 0 → q.len = 0 → e = taken b1) ∧
            (q.counter ≠ 0 → q.len ≠ 0 → ¬ begun → e = addCounter kept q.ctx q.counter 1))))

/-! ### Weight updates -/

/-- UPD_ADAM, UPD_ADAMW and UPD_SGDM of a live group update the range by their rule; of a group that is not valid or is
frozen they only take the seams; with the norm skip in force they skip it. Every array lies in stack k, and every word
that is read can be corrected (R268, R368 to R372, R378, R379, R383). UPD.NORM form 0 adds the exact squares of a norm
group's gradients to its seam and writes how many; form 1 writes the norm and the clip factor, keeps them for the
record, and sets the norm skip where the sum is not finite (R376, R378). Choices of the model that it rests on: log
18, 22, 42. -/
def Obligations.UpdatesAndNorms : Prop :=
  (∀ (s : State) (r : Fin 12) (c : Nat) (o : Ops), Executes s (.reckoner r) c → legalUpd o = true →
      let u := UnitId.reckoner r
      let b := s.blk
      let i := img b c u
      let k := r.val
      let a := faLocal (recOp b (sreg i (fa o))).1
      let h := readShard b a
      let g := readGrp b (ctxOf b c) h.group
      let sp := spanOf b i o h.n
      let last := sp.first + sp.count == h.n && sp.count != 0
      let out (x : U64) (j : UnitImg) : UnitImg := setS j (fd o) x
      let does (rule : Nat) (b1 : Block) : Block :=
        let w := mkWord 0x20 (rule + 1) o
        if !grpValid g then updRefuse b1 c k u w out h sp (sp.clamps + 1)
        else if grpFrozen g then updRefuse b1 c k u w out h sp sp.clamps
        else if grpNorm g && tget (rckOf b k).skip false c then updSkip b1 c k u w out h sp sp.clamps
        else updRun b1 c k rule u w out h g sp (fval i (fe o)) (sp.clamps + g.gclamp) last
      let ok (var : Bool) (b1 : Block) : Prop :=
        leastAddr (shardBad b c k i h (grpWidth g) var ++
          if last then (badByte b c h.notify (notifyRange h).2).toList else []) = none ∧
        readsMet b (updReads b c k a h g sp var) = (b1, none)
      lowBad b c k a 128 = none → ((updFetches h last).any fun q => missing b c i q.1 q.2) = false →
      (rckOf b k).storeBad = false →
      (∀ b1, ok true b1 →
        exec (.updAdam u o) s = .next (became s (does 0 b1)) ∧ exec (.updAdamw u o) s = .next (became s (does 1 b1))) ∧
      (∀ b1, ok false b1 → exec (.updSgdm u o) s = .next (became s (does 2 b1)))) ∧
  (∀ (s : State) (r : Fin 12) (c : Nat) (o : Ops), Executes s (.reckoner r) c →
      let u := UnitId.reckoner r
      let b := s.blk
      let i := img b c u
      let k := r.val
      let w := mkWord 0x20 0x00 o
      (rckOf b k).storeBad = false →
      (legalNormPartial o = true →
        let a := faLocal (recOp b (sreg i (fa o))).1
        let t := recOp b (sreg i (fe o))
        let h := readShard b a
        let g := readGrp b (ctxOf b c) h.group
        let sp := spanOf b i o h.n
        lowBad b c k a 128 = none → ((updFetches h false).any fun q => missing b c i q.1 q.2) = false →
        leastAddr (shardBad b c k i h (grpWidth g) (grpRule g != 2) ++ (badByte b c t.1 64).toList) = none →
        ∀ b1, readsMet b (localReads [(a, 128), (grpBase (ctxOf b c) h.group, 128),
            (h.seams + 64 * sp.first, 64 * sp.count)] ++ slotReads b c t.1) = (b1, none) →
          (grpValid g = true → grpFrozen g = false → grpNorm g = true →
            let q := squares b1 g h sp
            let b2 := rckHw (mergeSlot b1 c t.1 q.1) k 0
            let j := rckCount (img b2 c u) (evAdd q.2 (evClamps (sp.clamps + t.2 + g.gclamp))) 0 0 0
            exec (.updNormPartial u o) s = .next (became s (retireAfter b2 c u w
              (if j.builtin then j else setS j (fd o) (BitVec.ofNat 64 sp.count))))) ∧
          ((grpValid g && !grpFrozen g && grpNorm g) = false →
            let b2 := rckHw b1 k 0
            let j := rckCount (img b2 c u) (evAdd {} (evClamps (sp.clamps + t.2 + 0))) 0 0 0
            exec (.updNormPartial u o) s = .next (became s (retireAfter b2 c u w
              (if j.builtin then j else setS j (fd o) 0))))) ∧
      (legalNormTotal o = true →
        let t := recOp b (sreg i (fa o))
        badByte b c t.1 64 = none →
        ∀ b1, readsMet b (slotReads b c t.1 ++ localReads [(utBase (ctxOf b c), 64)]) = (b1, none) →
          let x := ctxOf b1 c
          let q := seamRound .f64 (seamOfBytes (readBytes b1 c (img b1 c u) t.1 64))
          let root := op1 fSqrt q
          let bad := !isFinite q.1
          let clip : FVal := if bad then .nan else (clipOf (rdF64 b1 (utBase x + 0x30)) (rdF64 b1 (utBase x + 0x38)) root.1).1.1
          ∃ d : Block, exec (.updNormTotal u o) s = .next (became s d) ∧
            (ctxOf d c).norm = code64 root.1 ∧ (ctxOf d c).clip = code64 clip ∧
            (ctxOf d c).normSkip = (x.normSkip || bad) ∧
            ((img b1 c u).builtin = false → freg (img d c u) (fd o) = code64 clip)))

/-! ### Collectives -/

/-- The engine's built-in program advances the request at its front by the rules of its kind; what a unit waited for goes
on afterwards. An undefined kind counts one clamp and ends; a timeout ends a started request as a failure (R199, R335
to R342). Choices of the model that it rests on: log 18, 43, 106. -/
def Obligations.CollectivesAdvance : Prop :=
  ∀ (s : State) (k : Fin 12) (c : Nat) (i : UnitImg) (q : CollReq), Up s →
    let b := s.blk
    let did (d : Block) : State := became s (settleAll d)
    (frontColl b k.val (· == 1) = some (c, i, q) → exec (.allGather k) s =
      .next (did (if q.stage < 2 then gatherSend b c k.val q true else gatherWait b c k.val q true))) ∧
    (frontColl b k.val (· == 3) = some (c, i, q) → exec (.broadcast k) s =
      .next (did (if q.stage < 2 then gatherSend b c k.val q false else gatherWait b c k.val q false))) ∧
    (frontColl b k.val (· == 2) = some (c, i, q) → q.stage ≠ 0 → exec (.reduceScatter k) s =
      .next (did (rsStep c k.val (3 * axisExtent b (argNat q 3 % 4) + 4) b q))) ∧
    (frontColl b k.val (· == 2) = some (c, i, q) → q.stage = 0 → argNat q 3 / 4 % 4 = 0 → argNat q 3 / 2 ^ 16 = 0 →
      rsFmt q ≤ 6 →
      let e := axisExtent b (argNat q 3 % 4)
      badByte b c (argLocal b q 0) ((e * argNat q 2 * raddSrcBits 5 (rsFmt q) + 7) / 8) = none →
      exec (.reduceScatter k) s = .next (did
        (rsStep c k.val (3 * e + 4) (setImg b c (engUnit k.val) { i with refus := [] }) { q with stage := 1 }))) ∧
    (frontColl b k.val (· == 4) = some (c, i, q) → q.stage ≠ 0 → exec (.permute k) s =
      .next (did (permStep c k.val (6 * q.todo.length * (permS q / 65536 + 2) + 8) b q))) ∧
    (frontColl b k.val (· == 0) = some (c, i, q) → q.stage ≠ 0 → i.run = .running → i.ret = some i.pc →
      exec (.collEngineProgram k) s = .next (did
        (endColl (setImg b c (engUnit k.val) { i with run := .running, builtin := true, ret := none }) c k.val
          { q with failed := sreg i 1 != 0 }))) ∧
    (frontColl b k.val (· == 0) = some (c, i, q) → q.stage = 0 → argNat q 0 % 8 = 0 → argNat q 0 < (ctxOf b c).imgSize →
      ∃ d, exec (.collEngineProgram k) s = .next (did d) ∧
        let j := img d c (engUnit k.val)
        j.pc = BitVec.ofNat 64 ((ctxOf b c).image.toNat + argNat q 0) ∧ j.run = .running ∧ j.builtin = false ∧
          j.ret = some (sreg j 31) ∧ sreg j 6 = ownAddr b (callCopy k.val) ∧
          ∀ r : Fin 5, sreg j (BitVec.ofNat 5 (r.val + 1)) = q.args.getD (r.val + 1) 0) ∧
    (frontColl b k.val (fun n => decide (n > 4)) = some (c, i, q) → exec (.collUndefinedKind k) s =
      .next (did (endColl (engClamp b c k.val 1) c k.val q))) ∧
    (frontColl b k.val (fun n => decide (1 ≤ n) && decide (n ≤ 4)) = some (c, i, q) → q.stage ≠ 0 →
      exec (.collWaitTimeout k) s = .next (did (endColl b c k.val { q with failed := true })))

/-! ### Requests and responses -/

/-- A target judges a request in the order of R293: fenced, no context of the job, an old or early generation, a faulted
tile, a tile window of a context that does not run (held), else it is performed. -/
def Obligations.RequestsJudgedInOrder : Prop :=
  ∀ (b : Block) (r : Request),
    let job := ctxOfJob b (r.epoch.toNat / 2 ^ 20)
    let l := r.addr.toNat % 2 ^ 49
    (b.fab.fenced = true → judge b r = .refuse 7) ∧
    (b.fab.fenced = false → job = none → judge b r = .refuse 3) ∧
    (∀ c, b.fab.fenced = false → job = some c →
      let g := (ctxOf b c).epoch.toNat % 2 ^ 20
      let rg := r.epoch.toNat % 2 ^ 20
      let n := reqLen r.op
      (rg < g → judge b r = .refuse 1) ∧ (g < rg → judge b r = .refuse 2) ∧
      (rg = g → (∀ key, localWhere b c l ≠ .mem key) → judge b r = .refuse 4) ∧
      (∀ key last, rg = g → localWhere b c l = .mem key → localWhere b c (if n = 0 then l else l + n - 1) = .mem last →
        (∀ t off, spaceOf l = .window t off →
          ((tileHw b t).faulted = true → judge b r = .refuse 5) ∧
          ((tileHw b t).faulted = false → b.running ≠ some c → judge b r = .hold) ∧
          ((tileHw b t).faulted = false → b.running = some c → judge b r = .perform c key)) ∧
        ((∀ t off, spaceOf l ≠ .window t off) → judge b r = .perform c key)))

/-- REQUEST_ARRIVAL of a request of a job that this module takes: refused, held, or performed with a response, and what
waited goes on (R293, R295, R326). RESPONSE_ARRIVAL, REQUEST_TIMEOUT and TAG_QUARANTINE_END: a response of the open
request of its tag and epoch ends it, and STALE fences the module; an unmatched one is late; a request still open at
its limit ends with TIMEOUT and its tag is quarantined until the end of its quarantine, when every port that waits for
a tag may go on (R192, R295, R297, R324). Choices of the model that it rests on: log 56. -/
def Obligations.RequestsTakenAndEnded : Prop :=
  (∀ (s : State) (r : Request), Up s → arrives s.blk r = true → jobOf r.epoch ≠ 0 →
      let b := s.blk
      let did (d : Block) : State := became s (settleAll d)
      (∀ st, judge b r = .refuse st →
        exec (.requestArrival r) s = .next (did (respond { b with fab := countRefused b.fab st } r st []))) ∧
      (judge b r = .hold →
        exec (.requestArrival r) s = .next (did { b with fab := { b.fab with held := b.fab.held ++ [r] } })) ∧
      (∀ c key, judge b r = .perform c key →
        let x := performReq b c key r.addr r.op
        exec (.requestArrival r) s = .next (did (respond x.1 r x.2.1 x.2.2)))) ∧
  (∀ (s : State), Up s →
      let b := s.blk
      let did (d : Block) : State := became s (settleAll d)
      let late := { b with fab := { b.fab with late := satAdd b.fab.late 1 } }
      (∀ (r : Response), r.dst = b.geo.own →
        (∀ q, tlook b.fab.reqs r.tag.toNat = some q →
          (r.epoch = q.req.epoch → r.epoch = (ctxOf b q.ctx).epoch →
            let d := endReq b r.tag.toNat r.status r.data
            exec (.responseArrival r) s = .next (did (if r.status = 1 then enterFenced d r.src r.epoch else d))) ∧
          (r.epoch ≠ q.req.epoch → exec (.responseArrival r) s = .next (did late))) ∧
        (tlook b.fab.reqs r.tag.toNat = none → jobOf r.epoch ≠ 0 → exec (.responseArrival r) s = .next (did late))) ∧
      (∀ t : BitVec 16, (tlook b.fab.reqs t.toNat).isSome = true →
        exec (.requestTimeout t) s = .next (did (endReq b t.toNat 0x10 []))) ∧
      (∀ (t : BitVec 16) u, tlook b.fab.quarantine t.toNat = some u →
        exec (.tagQuarantineEnd t) s =
          .next (did (pumpAll { b with fab := { b.fab with quarantine := tdel b.fab.quarantine t.toNat } }))))

/-! ### Links -/

/-- A flit that arrives on a usable link: an uncorrectable word, or a failed authentication, is counted once and discards
every flit until the expected one comes; an authentic flit acknowledges, returns credits and is delivered, and 32
credits or acknowledgements that wait send a link-control flit (R302 to R305, R309). A link-control flit does the same
by its fields. A flit that leaves the switch gives its place back (R307, R308, R311). -/
def Obligations.FlitsReceived : Prop :=
  ∀ (s : State) (k : Fin 32), Up s → linkUsable s.blk k.val = true →
    let b := s.blk
    let l := linkOf b k.val
    let n := bump16 l.rx l.rxLow
    (∀ lanes, decodeWords (fromWire (l.st == 8) l.spared lanes) = none →
      exec (.flitReceive k lanes) s = .next (became s (if l.nak then b else
        startNak (setLink b k.val { l with uncorr := satAdd l.uncorr 1 }) k.val))) ∧
    (∀ lanes x corr, decodeWords (fromWire (l.st == 8) l.spared lanes) = some (x, corr) →
      let cw := (x.drop 284).take 4
      let w := leNat cw
      let plain := Config.gcmOpenShort (l.rxKey.take 32) (l.rxKey.drop 32 ++ leBytes 8 l.rxNext) cw (x.take 284)
      (plain = none → exec (.flitReceive k lanes) s = .next (became s (if l.nak then b else
        startNak (setLink b k.val { l with authfail := satAdd l.authfail 1 }) k.val))) ∧
      (∀ content, plain = some content →
        let f := readFlit content
        let l1 := ackFirst l (acceptedOf l (w / 2 ^ 16 % 4096))
        let l2 := { l1 with
          corr := satAdd l1.corr corr, rxNext := l.rxNext + 1, nak := false, ackOwed := l1.ackOwed + 1, rx := n.1,
          rxLow := n.2, credits := addAt l1.credits (w / 2 ^ 14 % 4) (w / 2 ^ 10 % 16) }
        exec (.flitReceive k lanes) s = .next (became s (settleAll
          (settleLink (deliver (setLink b k.val l2) k.val (w / 2 ^ 8 % 4) f (w % 256 + 1)) k.val))))) ∧
    (∀ ack nak flags credits, exec (.linkControlFlit k ack nak flags credits) s = .next (became s
      (applyControl (setLink b k.val { l with
        rxNext := l.rxNext + 1, nak := false, ackOwed := l.ackOwed + 1, rx := n.1, rxLow := n.2 }) k.val ack.toNat
        (nak.map BitVec.toNat) flags.toNat credits))) ∧
    exec (.linkControlInterval k) s = .next (became s (sendControl b k.val 0)) ∧
    (∀ j e, l.queue[j]? = some e → exec (.flitSwitchDiscard k j) s = .next (became s
      (leaveBuffer (setLink b k.val { l with queue := l.queue.eraseIdx j, discard := satAdd l.discard 1 }) e)))

/-- Training takes a link from DISABLED or DETECT through EQUALIZE, TEST, ALIGN and IDENT to KEY or UP: each state's row
moves it on where its condition holds, to FAILED (9) where a test fails, to MISCABLED (10) where the identity
disagrees. Both ends must see signal on eight lanes; keys are kept over a retrain with the same other end only (R310,
R312, R313, R315). An idle link asks to narrow, a narrowed one widens when a flit waits; a due phase is redrawn once
the fabric is quiet, and until then, and between PREPARE and COMMIT, the ports are held (R316, R349, R359). Choices of
the model that it rests on: log 55, 59. -/
def Obligations.LinkTrainingAndWidth : Prop :=
  (∀ (s : State) (k : Fin 32), Up s →
      let b := s.blk
      let n := k.val
      let l := linkOf b n
      let go (st : BitVec 4) : State := became s (setLinkSt b n st)
      (∀ lanes : LinkSignal, (l.st = 0 ∨ l.st = 1) → l.disable = false →
        exec (.linkDetect k lanes) s = .next (
          if 8 ≤ popcount 9 lanes.here.toNat ∧ 8 ≤ popcount 9 lanes.there.toNat then
            became s (setLinkSt (setLink b n { l with keyed := false }) n 2)
          else go 1)) ∧
      (l.st = 2 → exec (.linkEqualize k) s = .next (go 3)) ∧
      (∀ errs, l.st = 3 →
        ((∀ j < 8, errs.getD j 0 < 2148) →
          exec (.linkTest k errs) s = .next (became s (setLinkSt (setLink b n { l with spared := 15 }) n 4))) ∧
        (∀ j < 8, 2148 ≤ errs.getD j 0 → (∀ i < 8, i ≠ j → errs.getD i 0 < 2148) → errs.getD 8 0 < 2148 →
          exec (.linkTest k errs) s =
            .next (became s (setLinkSt (setLink b n { l with spared := BitVec.ofNat 4 j }) n 4)))) ∧
      (l.st = 4 → exec (.linkAlign k) s = .next (go 5)) ∧
      (∀ peer coord dir index, l.st = 5 →
        let same := l.peer == peer && l.peerIdx == index
        let d := setLink b n { l with
          peer := peer, peerIdx := index, keyed := l.keyed && same, replay := if same then l.replay else [] }
        (identOk b n peer coord dir.toNat index.toNat = false →
          exec (.linkIdent k peer coord dir index) s = .next (became s (setLinkSt d n 10))) ∧
        (identOk b n peer coord dir.toNat index.toNat = true → (l.keyed = false ∨ same = false ∨ l.rekey = true) →
          exec (.linkIdent k peer coord dir index) s = .next (became s (setLinkSt d n 6))) ∧
        (identOk b n peer coord dir.toNat index.toNat = true → l.keyed = true → same = true → l.rekey = false →
          exec (.linkIdent k peer coord dir index) s = .next (became s (linkToUp d n)))) ∧
      (linkUsable b n = true → exec (.linkRetrain k 1) s = .next (became s (retrain b n)) ∧
        (8 ≤ l.replays → exec (.linkRetrain k 0) s = .next (became s (retrain b n))) ∧
        exec (.sequenceLimitRekey k) s = .next (became s (retrain (setLink b n { l with rekey := true }) n))) ∧
      ((l.st = 2 ∨ l.st = 3 ∨ l.st = 4) → exec (.linkRetrain k 2) s = .next (became s (failLink b n)))) ∧
  (∀ (s : State) (k : Fin 32), Up s →
      let b := s.blk
      let l := linkOf b k.val
      (l.st = 7 → l.narrowEn = true → l.queue = [] → exec (.linkNarrow k) s = .next (became s (sendControl b k.val 2))) ∧
      (l.st = 8 → l.queue ≠ [] → exec (.linkWiden k) s =
        .next (became s (drainLink (setLinkSt (sendControl b k.val 8) k.val 7) k.val))) ∧
      (b.geo.remap = true → b.torus.phases ≠ [] →
        let v := remapValue b % b.torus.phases.length
        v ≠ b.house.phase.toNat →
        (switchQuiet b = false → exec .remapRedraw s = .next (became s { b with fab := { b.fab with portsHeld := true } })) ∧
        (switchQuiet b = true →
          let d := applyPhase { b with house := { b.house with
            phase := BitVec.ofNat 3 v, remaps := satAdd b.house.remaps 1 } } v
          exec .remapRedraw s =
            .next (became s (settleAll (pumpAll { d with fab := { d.fab with portsHeld := d.house.prepare.isSome } }))))))

/-- KEY (R465): with the peer's certificate, report and, at the lower end, signature good and own signatures made, both
directions take new keys and count from 0, flits not yet acknowledged the first of the new sequence, and the link is
UP; otherwise the agreement failed, and the link is FAILED (R310). Choices of the model that it rests on: log 11, 50,
54. -/
def Obligations.LinkKeyAgreement : Prop :=
  ∀ (s : State) (k : Fin 32) (p : KeyPeer), Up s → (linkOf s.blk k.val).st = 6 →
    let b := s.blk
    let l := linkOf b k.val
    let lower := decide (b.geo.own.toNat < l.peer.toNat)
    let bind := Config.shake p.offer
    let d := draw b 64
    let good := canKey b = true ∧ certOk b p.cert = true ∧ peerReportOk b p.cert p.report bind p.readmit = true ∧
      (lower = true → Config.xmssVerify (certKey p.cert) bind p.sig = true)
    (¬ good → exec (.linkKey k p) s = .next (became s (failLink (agreeFailed b) k.val))) ∧
    (∀ b1, good → keySign d.2 lower bind = some b1 →
      let z := sessionSecret (if lower then Config.mlkemDecap d.1 p.share else (Config.mlkemEncap p.share d.1).2) p.transcript
      let up := (linkKeys z).1
      let dn := (linkKeys z).2
      let m := linkOf b1 k.val
      exec (.linkKey k p) s = .next (became s (linkToUp { setLink b1 k.val { m with
          keyed := true, rekey := false, txKey := if lower then up else dn, rxKey := if lower then dn else up,
          txNext := m.replay.length, rxNext := 0, replays := 0, nak := false,
          replay := m.replay.mapIdx fun j e => { e with seq := j, cw := controlAgain e.cw },
          credits := if m.keyed then m.credits else [256, 256, 256, 256],
          owed := if m.keyed then m.owed else [0, 0, 0, 0] } with
        house := { b1.house with rekeyed := b1.house.rekeyed ||| (1#32 <<< k.val) } } k.val)))

/-- A flit's 288 content bytes come back whole from the lanes of a link: eighteen code words, symbol n of the flit being
symbol n mod 36 of word n ÷ 36, on lane n mod 8 at lane slot n ÷ 8, or on lane 0 at slot n of a narrowed link, the
spare serving for the lane it replaces, bits [3:2] of a symbol first (R266, R267, R300, R306, R316). -/
def Obligations.FlitsOnTheWire : Prop :=
  ∀ (narrow : Bool) (spared : BitVec 4),
    (∀ ws : List (BitVec 144), ws.length = 18 → fromWire narrow spared (toWire narrow spared ws) = ws) ∧
    (∀ x : List Byte, x.length = 288 → decodeWords (fromWire narrow spared (toWire narrow spared (flitWords x))) = some (x, 0)) ∧
    (∀ (ws : List (BitVec 144)) (n : Nat), n < 648 →
      let lane := if spared.toNat = (if narrow then 0 else n % 8) then 8 else (if narrow then 0 else n % 8)
      let slot := if narrow then n else n / 8
      let y := (ws.getD (n / 36) 0).extractLsb' (4 * (n % 36)) 4
      let l := (toWire narrow spared ws).getD lane []
      l[2 * slot]? = some (y.extractLsb' 2 2) ∧ l[2 * slot + 1]? = some (y.extractLsb' 0 2))

/-! ### Memory controllers and clocks -/

/-- A patrol scrub of a present stack with scrubbing on, outside self-refresh, reads and corrects one line of each of its
channels and moves on, counting a pass at the end of the stack; an uncorrectable word is a region fault. The tier's
scrub does so by its buses, a tile's by 64 bytes of its SRAM, where an uncorrectable word is a tile fault (R105, R269,
R270, R284, R286, R288). Self-refresh, temperature bands, throttle levels, bus indications, region PLLs and the
short-vector unit's power (R119, R281 to R283, R286, R477, R478). Choices of the model that it rests on: log 57, 58,
89, 93. -/
def Obligations.MemoryControllersAndClocks : Prop :=
  (∀ (s : State), Up s →
      let b := s.blk
      (∀ k : Fin 13, k.val < 12 → b.geo.stackMask.getLsbD k.val = true → (mcOf b k.val).scrubEn = true →
        (mcOf b k.val).selfRefresh = false →
        let n := (mcOf b k.val).scrubLine
        let r := scrubLines b ((List.range 128).map fun ch => chanAddr k.val ch n)
        let m := mcOf r.1 k.val
        let d := setMc r.1 k.val { m with
          scrubLine := if n + 1 = 2 ^ 21 then 0 else n + 1,
          scrubPass := satAdd m.scrubPass (if n + 1 = 2 ^ 21 then 1 else 0) }
        exec (.mcScrub k) s = .next (became s (if r.2 then regionFault d k.val 1 else d))) ∧
      (presentBuses b ≠ [] → (mcOf b 0).scrubEn = true →
        let n := b.ct.scrubLine
        let r := scrubLines b ((List.range (presentBuses b).length).map fun j => busAddr b j n)
        let d := { r.1 with ct := { r.1.ct with
          scrubLine := if n + 1 = 2 ^ 28 then 0 else n + 1,
          scrubPass := satAdd r.1.ct.scrubPass (if n + 1 = 2 ^ 28 then 1 else 0) } }
        exec (.mcScrub 12) s = .next (became s (if r.2 then chipFault d 3 0 1 else d))) ∧
      (∀ (t : Fin 1152) (c : Nat), tilePresent b t.val = true → clocked b (t.val / 96) = true →
        (tileHw b t.val).scrub = true → gated b t.val = false → (tileHw b t.val).faulted = false → b.running = some c →
        let n := (tileHw b t.val).scrubPos
        let r := scrubRead b (sramKey c t.val (64 * n)) 64
        let h := tileHw r.1 t.val
        let d := setTileHw r.1 t.val { h with
          scrubPos := if n + 1 = 24576 then 0 else n + 1,
          scrubPass := satAdd h.scrubPass (if n + 1 = 24576 then 1 else 0) }
        exec (.tileScrub t) s = .next (became s
          (if r.2.isSome then tileFault d t.val 2 (n % 32) (liveImg d (.tile (tile1152 t.val))).pc else d)))) ∧
  (∀ (s : State), Up s →
      let b := s.blk
      (∀ k : Fin 12,
        let m := mcOf b k.val
        (b.geo.stackMask.getLsbD k.val = true → m.selfRefresh = false → stackUsed b k.val = false →
          exec (.selfRefreshEntry k) s =
            .next (became s (setMc b k.val { m with selfRefresh := true, srEntry := satAdd m.srEntry 1 }))) ∧
        (m.selfRefresh = true →
          exec (.selfRefreshExit k) s = .next (became s (setMc b k.val { m with selfRefresh := false }))) ∧
        (∀ band : BitVec 3,
          let asked : Nat := if m.b25.toNat ≤ band.toNat ∨ 6 ≤ band.toNat then 3 else if m.b50.toNat ≤ band.toNat then 2
            else if m.b75.toNat ≤ band.toNat then 1 else 0
          let d := setMc b k.val { m with
            band := band, throttle := satAdd m.throttle (if m.level = 0 then 0 else 32),
            level := BitVec.ofNat 2 (max m.level.toNat asked) }
          exec (.temperatureBandReport k band) s = .next (became s
            (if 6 ≤ band.toNat then thermalCritical (setHot d k.val true) k.val band.toNat else setHot d k.val false))) ∧
        (bandLevel m m.band < m.level.toNat →
          exec (.throttleRelax k) s = .next (became s (setMc b k.val { m with level := m.level - 1 }))) ∧
        (tget b.pw.regionPll 0 k.val = 1 → exec (.regionPllLock k) s = .next (became s
          (settleAll { b with pw := { b.pw with regionPll := tput b.pw.regionPll 0 k.val 2 } }))) ∧
        (tget b.pw.regionPll 0 k.val ≠ 0 → exec (.regionPllLockLoss k) s = .next (became s
          (regionFault { b with pw := { b.pw with regionPll := tput b.pw.regionPll 0 k.val 0 } } k.val 4)))) ∧
      (∀ (bus : Fin 16) (hot : Bool), b.geo.capBuses.getLsbD bus.val = true →
        ∃ d, exec (.busTemperatureIndication bus hot) s = .next (became s d) ∧
          (∀ j < 16, d.ct.throttled.getLsbD j = if j = bus.val then hot else b.ct.throttled.getLsbD j) ∧
          (hot = true → d.pw.alert = b.pw.alert ||| 8 ∧ d.chipEvent = b.chipEvent ||| 2)) ∧
      (∀ t : Fin 1152, (tileHw b t.val).svuHold = false → (tileHw b t.val).svuDown = false →
        exec (.svuPowerDown t) s =
          .next (became s (setTileHw b t.val { tileHw b t.val with svuDown := true, svuIdle := 4096 }))))

/-! ### Houses -/

/-- Every HOUSE_BEAT a keeper sends BEAT and a member ALIVE, with what each has to repeat; a house PUT is taken, refused
FENCED or refused PROT; a BEAT of a higher term, or of the keeper, is followed; its live mask ends the module's own
record that a member is dead; an ALIVE acknowledges (R353 to R355). PREPARE of the module obeyed, with a later
generation, holds the ports until READY; a keeper collects READY; COMMIT adopts the epoch, a keeper passing it on and
a member answering ALIVE; a READY that does not come joins the dead (R358, R359). Choices of the model that it rests
on: log 61, 64. -/
def Obligations.HouseBeatsAndGenerations : Prop :=
  (∀ (s : State),
      (Up s → s.blk.torus.valid = true →
        let b := if s.blk.house.isKeeper && !s.blk.fab.fenced then keeperBeat s.blk else memberBeat s.blk
        exec .houseBeatTimer s = .next (became s (if b.fab.fenced then b else (outboxTo b).foldl sendFragment b))) ∧
      (∀ r : Request, Up s → jobOf r.epoch = 0 → faModule r.addr = s.blk.geo.own →
        exec (.houseMessageArrival r) s = .next (became s (houseTake s.blk r))) ∧
      (∀ (m : BitVec 15) x b1, Received s 1 m.toNat x b1 →
        exec (.beat m) s = .next (became s (if follows b1 m.toNat x then
          { geoChange b1 fun g => { g with keeper := m } with
            house := { b1.house with
              term := x.term, live := x.live, isKeeper := false, isFirst := false
              gone := b1.house.gone.filter (notShown b1 x) } } else b1))) ∧
      (∀ (m : BitVec 15) x b1, Received s 2 m.toNat x b1 → exec (.alive m) s = .next (became s b1))) ∧
  (∀ (s : State) (m : BitVec 15),
      (∀ x b1, Received s 7 m.toNat x b1 → obeys b1 m.toNat = true →
        b1.torus.epoch.toNat % 2 ^ 20 < x.epoch.toNat % 2 ^ 20 →
        let again := b1.house.prepare == some x.epoch
        let b2 := if again then b1 else holdPorts b1 x.epoch
        exec (.prepare m) s = .next (became s (if b2.house.isKeeper && !again then
          tryReady (sendPrepare { b2 with house := { b2.house with raise := some (x.epoch, []) } } x.epoch (otherMembers b2))
          else tryReady b2))) ∧
      (∀ x b1 e got, Received s 8 m.toNat x b1 → b1.house.isKeeper = true → b1.house.raise = some (e, got) →
        (awaited b1).contains m.toNat = true → got.contains m.toNat = false →
        exec (.ready m) s =
          .next (became s (tryReady { b1 with house := { b1.house with raise := some (e, m.toNat :: got) } }))) ∧
      (∀ x b1, Received s 9 m.toNat x b1 → obeys b1 m.toNat = true →
        b1.torus.epoch.toNat % 2 ^ 20 < x.epoch.toNat % 2 ^ 20 →
        let b2 := adoptEpoch b1 x.epoch
        exec (.commit m) s = .next (became s (if b2.house.isKeeper then
          sendState { b2 with house := { b2.house with dead := [] } } 9 (otherMembers b2)
          else sendState b2 2 [m.toNat]))) ∧
      (∀ e got, Up s → s.blk.house.isKeeper = true → s.blk.house.raise = some (e, got) →
        (awaited s.blk).contains m.toNat = true → got.contains m.toNat = false →
        exec (.readyTimeout m) s = .next (became s
          (tryReady { s.blk with house := { s.blk.house with gone := s.blk.house.gone ++ [m.toNat] } }))))

/-- A report of a context, whose two words the memory code delivers (R268), goes to the keeper; a keeper probes the
suspect, which echoes; an answer to a reporter writes its report record; a probe that times out declares the suspect
dead (R357). A keeper declares a silent member dead; the c-th module in the order of succession takes the role when
the keeper has been silent c periods: its term rises by c, the old keeper is declared dead, and its members hear a
BEAT (R354 to R356). Choices of the model that it rests on: log 49, 63. -/
def Obligations.HouseReportsAndSilence : Prop :=
  (∀ (s : State),
      (∀ c : Fin 16, Up s → resident s.blk c.val = true → s.blk.torus.valid = true →
        let r := readOwn s.blk (reportBase s.blk c.val) 16
        let b := r.1.1
        let n := leNat (r.2.take 8)
        let m := leNat ((r.2.drop 8).take 2) % 2 ^ 15
        r.1.2 = none → tget s.blk.house.seenRpt 0 c.val ≠ n →
        let d := { b with house := { b.house with
          seenRpt := tput b.house.seenRpt 0 c.val n, pendingRpt := b.house.pendingRpt ++ [(c.val, m)] } }
        exec (.suspectReport c) s = .next (became s (if b.house.isKeeper then takeReport d (ownNo d) m
          else sendHouse d d.geo.keeper.toNat { stateMsg d 3 d.geo.keeper.toNat with subject := BitVec.ofNat 15 m }))) ∧
      (∀ (m : BitVec 15) x b1, Received s 3 m.toNat x b1 → exec (.suspect m) s =
        .next (became s (if b1.house.isKeeper then takeReport b1 m.toNat x.subject.toNat else b1))) ∧
      (∀ (m : BitVec 15) x b1, Received s 4 m.toNat x b1 → exec (.probe m) s =
        .next (became s (sendHouse b1 m.toNat { stateMsg b1 5 m.toNat with subject := b1.geo.own }))) ∧
      (∀ (m : BitVec 15) x b1, Received s 5 m.toNat x b1 → exec (.echo m) s =
        .next (became s (if b1.house.isKeeper then closeProbes b1 m.toNat true
          else if m = b1.geo.keeper then answerOwn b1 x.subject.toNat 0 else b1))) ∧
      (∀ (m : BitVec 15) x b1, Received s 6 m.toNat x b1 → exec (.dead m) s =
        .next (became s (if b1.house.isFirst then declareDead b1 (namedDead b1 x)
          else if m = b1.geo.keeper then answerOwn b1 x.subject.toNat (deadResult b1 x.subject.toNat)
          else b1))) ∧
      (∀ m : BitVec 15, Up s → s.blk.house.isKeeper = true → (∃ p ∈ s.blk.house.probes, p.1 = m.toNat) →
        exec (.probeTimeout m) s = .next (became s (closeProbes (declareDead s.blk [m.toNat]) m.toNat false)))) ∧
  (∀ (s : State), Up s →
      let b := s.blk
      (∀ m : BitVec 15, b.house.isKeeper = true → (otherMembers b).contains m.toNat = true →
        exec (.memberSilence m) s = .next (became s (declareDead b [m.toNat]))) ∧
      (∀ c, b.torus.valid = true → b.house.isKeeper = false → b.fab.fenced = false → turnOf b (ownNo b) = some c →
        let b1 := geoChange b fun g => { g with keeper := g.own }
        let b2 := declareDead { b1 with house := { b1.house with
          isKeeper := true, isFirst := ownHouse b == 0, term := b1.house.term + BitVec.ofNat 32 c,
          successions := satAdd b1.house.successions 1, admitted := true } } [b.geo.keeper.toNat]
        exec (.keeperSilence c) s = .next (became s (sendState b2 1 (otherMembers b2)))))

/-- A fragment that is next in number is collected, and a whole unit handed on: a member's frame to the host or a host's
frame to a member, a member's signature record to its keeper. JOIN queues a module for admission once every link to it
has passed KEY; ADMIT gives it the epoch and ends the fenced state once every usable link has new keys (R360, R435,
R508). Choices of the model that it rests on: log 8, 62, 65. -/
def Obligations.FragmentsAndAdmission : Prop :=
  ∀ (s : State) (m : BitVec 15),
    (∀ x b1 second, Received s 10 m.toNat x b1 → isNext b1 m.toNat x = true →
      let r := takeFragment b1.house.relayIn m.toNat x
      let b2 := { b1 with house := markGot m.toNat x { b1.house with relayIn := r.1 } }
      (r.2 = none → exec (.relay m second) s = .next (became s b2)) ∧
      (∀ u, r.2 = some u → b2.house.isKeeper = false → m = b2.geo.keeper → headerOk u = true →
        exec (.relay m second) s = .next (became s (transportTake { b2 with hp := { b2.hp with sender := none } } u second))) ∧
      (∀ u, r.2 = some u → b2.house.isKeeper = true → cabled b2 = true →
        let t := bump16 b2.hp.tx b2.hp.txLow
        exec (.relay m second) s = .next (became s
          { b2 with hp := { b2.hp with tx := t.1, txLow := t.2 }, egress := b2.egress ++ [.clear (tlook b2.hp.relayed m.toNat) u] }))) ∧
    (∀ x b1, Received s 11 m.toNat x b1 → isNext b1 m.toNat x = true →
      let r := takeFragment b1.house.sigIn m.toNat x
      let b2 := { b1 with house := markGot m.toNat x { b1.house with sigIn := r.1 } }
      (r.2 = none → exec (.sig m) s = .next (became s b2)) ∧
      (∀ u g, r.2 = some u → b2.house.isKeeper = true → readSig u = some g →
        exec (.sig m) s = .next (became s (holdRec b2 g)))) ∧
    (∀ x b1, Received s 12 m.toNat x b1 → b1.house.isKeeper = true → houseOf b1 m.toNat = some (ownHouse b1) →
      b1.house.joins.contains m.toNat = false → keyedWith b1 m.toNat = true →
      exec (.join m) s =
        .next (became s { b1 with house := { b1.house with joins := b1.house.joins ++ [m.toNat] } })) ∧
    (∀ x b1, Received s 13 m.toNat x b1 → m = b1.geo.keeper →
        (b1.fab.fenced = false ∧ b1.house.admitted = true ∨ linksRekeyed b1 = true) →
      let job : List Nat :=
        if b1.fab.fenced then (b1.ctxs.filter fun e => jobOf e.2.epoch == jobOf x.epoch).map Prod.fst else []
      let b2 := job.foldl destroyCtx b1
      exec (.admitModule m) s = .next (became s (settleAll { b2 with
        torus := { b2.torus with epoch := x.epoch }, fab := { b2.fab with fenced := false, portsHeld := false },
        house := { b2.house with admitted := true, prepare := none, prepared := false } })))

/-! ### The host port -/

/-- A frame that reaches a cabled port is counted, then checked in order: length and FCS, EtherType, IP, UDP; the first
failure counts and ends it; a datagram for a live member is relayed, any other goes to the transport, its sender noted
as the host that answers go to (R420, R422, R435). Choices of the model that it rests on: log 66, 68. -/
def Obligations.HostFramesReceived : Prop :=
  ∀ (s : State) (frame : List Byte) (second : Nat) (target : BitVec 15), Up s → cabled s.blk = true →
    let n := bump16 s.blk.hp.rx s.blk.hp.rxLow
    let hp : HostPort := { s.blk.hp with rx := n.1, rxLow := n.2 }
    let b := { s.blk with hp := hp }
    let body := frame.take (frame.length - 4)
    let whole := 18 ≤ frame.length ∧ frame.length ≤ 9216 ∧ fcsOf body = frame.drop (frame.length - 4)
    let ether := beAt frame 12 2
    let x := exec (.hostFrameReceive frame second target) s
    (¬ whole → x = .next (became s { b with hp := { hp with dropLen := satAdd hp.dropLen 1 } })) ∧
    (whole → ether ≠ 0x86DD → ether ≠ 0x0800 → ether ≠ 0x0806 →
      x = .next (became s { b with hp := { hp with dropProto := satAdd hp.dropProto 1 } })) ∧
    (whole → ether = 0x86DD ∨ ether = 0x0800 →
      (ipTake hp ether (body.drop 14) = none →
        x = .next (became s { b with hp := { hp with dropIp := satAdd hp.dropIp 1 } })) ∧
      (∀ d, ipTake hp ether (body.drop 14) = some d → d.proto ≠ 1 → d.proto ≠ 58 →
        (udpTake d = none → x = .next (became s { b with hp := { hp with dropUdp := satAdd hp.dropUdp 1 } })) ∧
        (∀ p, udpTake d = some p → x = .next (became s
          (if relayMember b target.toNat then
            queueFragments { b with hp := { hp with relayed := tins hp.relayed target.toNat (senderOf frame d) } } 0x0A
              target.toNat p
          else transportTake { b with hp := { hp with sender := some (senderOf frame d) } } p second)))))

/-- The timers of an open session: the resend timer sends every unacknowledged frame again, with the sequence number and
the acknowledgement it had (on the event channel, the frames of undelivered events); the acknowledgement timer
acknowledges what is owed, inactivity closes the session and counts it (R423, R430). HELLO in a known role, with room
for a session and a working root, is answered by OFFER; ENCAP that passes the checks of its role opens the session and
is answered by DONE, else by ERROR; an agreement that is not finished in time is dropped (R461 to R463). Choices of
the model that it rests on: log 11, 50, 67. -/
def Obligations.SessionsOpenAndEnd : Prop :=
  (∀ (s : State) (id : Nat) (ch : Fin 3) (x : Session), Up s → tlook s.blk.sessions id = some x →
      let b := s.blk
      exec (.hostResendTimer id ch) s = .next (became s (if ch.val = 1 then
          ((x.events.foldl (fun (p : Block × Nat) e => (eventFrame p.1 id p.2 x.z e, p.2 + 1))
            (b, (chanOf x 1).txNext - x.events.length)).1)
        else (chanOf x ch.val).unacked.foldl
          (fun z f => emitFrame z id ch.val (sealedFrame x.z id ch.val f.seq f.ack f.payload)) b)) ∧
      ((chanOf x ch.val).ackDue ≠ 0 → exec (.hostAckTimer id ch) s = .next (became s (sendAck b id ch.val))) ∧
      exec (.sessionInactivity id) s = .next (became s { b with
        sessions := tdel b.sessions id, hp := { b.hp with sessionEnd := satAdd b.hp.sessionEnd 1 } })) ∧
  (∀ (s : State), Up s →
      let b := s.blk
      (∀ role body, role ≤ 2 → b.sessions.length < 8 → canKey b = true →
        let dk := draw b 64
        let nonce := draw dk.2 32
        let id := nonce.2.hp.nextSession
        let part := nonce.1 ++ leBytes 8 id.toNat ++ Config.mlkemKey dk.1
        ∀ r, report nonce.2 (Config.shake (body ++ part)) 0 = some r →
          let offer := part ++ r.2.vy.cert ++ r.1
          let a : Agreement :=
            { role := role, peer := body.drop 32, transcript := body ++ offer, session := id, dk := dk.1 }
          exec (.hello role body) s = .next (became s (sendAgreement
            { r.2 with hp := { r.2.hp with nextSession := id + 1, agreements := r.2.hp.agreements ++ [a] } }
            id.toNat 2 role offer))) ∧
      (∀ session body a, b.hp.agreements.find? (fun a => a.session.toNat == session) = some a →
        let ct := body.take 1568
        let t := a.transcript ++ body
        let z := sessionSecret (Config.mlkemDecap a.dk ct) t
        let good := (a.role = 0 ∨ Config.mldsaVerify a.peer (Config.shake a.transcript ++ ct) (body.drop 1568) = true) ∧
          (a.role = 1 → operatorOk b (Config.shake a.peer) = true) ∧ b.sessions.length < 8 ∧ canKey b = true
        (¬ good → exec (.encap session body) s = .next (became s (agreementError b session a.role))) ∧
        (good → exec (.encap session body) s = .next (became s (sendAgreement
          (setSession (enrolFirst { b with hp := { b.hp with agreements := b.hp.agreements.filter fun q => q != a } } a)
            session { role := roleOf a.role, peer := a.peer, z := z, addr := b.hp.sender }) session 4 a.role
          (Config.kmac (confirmKey z) t 256 [])))) ∧
        exec (.agreementTimeout session) s = .next (became s (agreeFailed { b with hp := { b.hp with
          agreements := b.hp.agreements.filter fun a => a.session.toNat != session } }))))

/-- The address services of a cabled port: ARP, neighbour solicitation and echo requests for the port's addresses are
answered, DHCP sets the IPv4 address, an advertised prefix adds an IPv6 address; the state of the Ethernet link
follows what the cage shows (R417, R419, R479). Choices of the model that it rests on: log 68. -/
def Obligations.AddressServices : Prop :=
  ∀ (s : State), Up s →
    let b := s.blk
    (∀ p : EtherPeer,
      let link : BitVec 2 := if b.hp.disable || !p.plugPowered || !p.signal then 0 else if !p.trained then 1
        else if p.partnerFast && p.plugFast && !b.hp.force800 then 2 else 3
      let h : HostPort := { b.hp with link := link, lowPower := !p.plugPowered }
      let up := became s { b with hp := if link.toNat < 2 then h else addIp6 h (linkLocal b.hp.mac) }
      exec (.ethernetLinkChange p) s = .next up ∧
      ((tget b.pw.itin {} 7).now = 3 → b.hp.link.toNat < 2 → exec (.hostPortRetry p) s = .next up)) ∧
    (cabled b = true →
      (∀ ip, exec (.dhcpReply ip) s = .next (became s { b with hp := { b.hp with ip4 := ip, ipv4 := true } })) ∧
      (∀ p : U64, exec (.routerAdvertisement p) s = .next (became s { b with
        hp := addIp6 b.hp ((p.setWidth 128 <<< 64) ||| (eui64 b.hp.mac).setWidth 128) })) ∧
      (∀ mac ip want, b.hp.ipv4 = true → want = b.hp.ip4 →
        ∃ body, exec (.arpRequest mac ip want) s =
          .next (became s (emitClear b (etherFrame b.hp (beBytes 6 mac.toNat) 0x0806 body)))) ∧
      (∀ mac ip want, b.hp.ip6.contains want = true →
        exec (.neighbourSolicitation mac ip want) s = .next (became s (emitClear b (etherFrame b.hp
          (beBytes 6 mac.toNat) 0x86DD (icmp6 want ip 255 (beBytes 2 0x8800)
            (beBytes 4 0x60000000 ++ beBytes 16 want.toNat ++ beBytes 2 0x0201 ++ beBytes 6 b.hp.mac.toNat))))) ∧
        ∀ x, exec (.echoRequest true mac ip want x) s = .next (became s (emitClear b (etherFrame b.hp
          (beBytes 6 mac.toNat) 0x86DD (icmp6 want ip 64 (beBytes 2 0x8100) x))))) ∧
      (∀ mac ip want x, b.hp.ipv4 = true → want = b.hp.ip4.setWidth 128 →
        ∃ head, exec (.echoRequest false mac ip want x) s = .next (became s
          (emitClear b (etherFrame b.hp (beBytes 6 mac.toNat) 0x0800 (head ++ x))))))

/-! ### Host commands -/

/-- A command of an open session is checked in the order of R428: a repeated identifier gets its kept response; another
module's gets 0x0009 unless a member relays it; then the critical flag (0x0002), the length (0x000A), the role
(0x0005), the check (0x0003) and the counter (0x0004); a critical one refused at its role, check or counter is
counted. Choices of the model that it rests on: log 50, 66, 95. -/
def Obligations.CommandsCheckedInOrder : Prop :=
  ∀ (b : Block) (x : Session) (op : Nat) (critical : Bool) (roles : List Role) (h : Cmd) (f : Block → Session → Run),
    tlook b.sessions h.session = some x →
    let run := command op critical roles h f b
    let counted := { b with hp := { b.hp with cmdRefused := satAdd b.hp.cmdRefused 1 } }
    let check := Config.kmac (commandKey x.z) (leBytes 8 h.session ++ cmdBytes op h) 128 (ascii "ZTM-T32 CMD")
    let here := (∀ r ∈ x.kept, r.id ≠ h.id) ∧ h.target = b.geo.own.toNat
    (∀ r, (x.kept.find? fun r => r.id == h.id) = some r → run = sendReply b h.session h.target r) ∧
    ((∀ r ∈ x.kept, r.id ≠ h.id) → h.target ≠ b.geo.own.toNat →
      run = if relayMember b h.target then b else answer b op h { status := 9 }) ∧
    (here → h.flags.getLsbD 0 ≠ critical → run = answer b op h { status := 2 }) ∧
    (here → h.flags.getLsbD 0 = critical → h.len ≠ h.params.length → run = answer b op h { status := 0x0A }) ∧
    (here → h.flags.getLsbD 0 = critical → h.len = h.params.length → roles.contains x.role = false →
      run = answer (if critical then counted else b) op h { status := 5 }) ∧
    (here → critical = true → h.flags.getLsbD 0 = true → h.len = h.params.length → roles.contains x.role = true →
      (check ≠ h.check → run = answer counted op h { status := 3 }) ∧
      (check = h.check → h.counter.toNat ≤ b.hp.lastCtr.toNat → run = answer counted op h { status := 4 }))

/-- The commands every role may issue, and register writes, answer as their rows say (R423, R425, R460, R508). Choices of
the model that it rests on: log 69, 78. -/
def Obligations.GeneralCommands : Prop :=
  ∀ (s : State) (h : Cmd) (x : Session), Up s →
    let b := s.blk
    let l := par h 0 8 / 4 * 4
    let recs := (b.ft.recs.filter fun r => decide (par h 4 4 ≤ r.num)).take (par h 8 4)
    (Accepted b 0x0001 false anyRole h x →
      exec (.status h) s = .next (answered s 0x0001 h b { status := 0, data := statusData b })) ∧
    (Accepted b 0x0002 false anyRole h x → h.params.length = 64 → canKey b = true → ∀ r, report b h.params 0 = some r →
      exec (.identity h) s = .next (answered s 0x0002 h r.2 { status := 0, data := b.vy.cert ++ r.1 })) ∧
    (Accepted b 0x0003 false anyRole h x → exec (.sessionClose h) s =
      .next (became s (closeSession (answer b 0x0003 h { status := 0 }) h.session))) ∧
    (Accepted b 0x0010 false readerRole h x → h.params.length = 8 → isControl l = true →
      exec (.regRead h) s = .next (answered s 0x0010 h (latchLow b l)
        { status := 0, data := leBytes 4 (hostRegister b l).toNat })) ∧
    (Accepted b 0x0011 false operatorOnly h x → h.params.length = 12 → isControl l = true →
      b.chip.policy.getLsbD 0 = false → blkAt b (blkIndex l) ≠ .vyano →
      let r := wrote (ctlWrite b l (BitVec.ofNat 32 (par h 8 4)))
      exec (.regWrite h) s = .next (answered s 0x0011 h r.1 r.2)) ∧
    (Accepted b 0x0061 false readerRole h x → h.params.length = 12 → par h 0 1 = 0 → par h 1 1 ≤ 1 →
      exec (.signaturesRead h) s = .next (answered s 0x0061 h b {
        status := 0, data := if par h 1 1 = 0 then recs.flatMap sigCbor else jsonArray (recs.map sigJson) })) ∧
    (Accepted b 0x0061 false readerRole h x → h.params.length = 8 → par h 0 1 = 1 →
      exec (.signaturesAck h) s = .next (answered s 0x0061 h { b with ft := { b.ft with
        recs := b.ft.recs.map fun r => if r.num ≤ par h 4 4 then { r with acked := true } else r } } { status := 0 }))

/-- The context commands of a session that may issue them change their context and answer done; clamped parameters count
and show in the detail; an image that the memory code cannot deliver is refused 0x1B (R160, R402, R425 to R427, R529,
R533). Choices of the model that it rests on: log 3, 8, 51, 57, 70, 72, 73. -/
def Obligations.ContextCommands : Prop :=
  ∀ (s : State) (h : Cmd) (x : Session) (y : Ctx), Up s →
    let b := s.blk
    let b' := afterCounter b h
    let c := ctxPar h 0
    let did (op : Nat) (d : Block) : State :=
      answered s op h (withClamps c.2 (done d)).1 (withClamps c.2 (done d)).2
    (Accepted b 0x0020 true operatorOnly h x →
      let r := ctxReq h
      h.params.length = 0x20 + 16 * r.1.ranges.length → mayCreate b' r.1.epoch = true → createRefusal b' r.1 = none →
      let d := withClamps r.2 (done (createCtx b' h.session r.1))
      exec (.ctxCreate h) s = .next (answered s 0x0020 h d.1 d.2)) ∧
    (h.params.length = 1 →
      (Accepted b 0x0021 true operatorOnly h x → (tlook b'.ctxs c.1).isSome = true →
        exec (.ctxDestroy h) s = .next (did 0x0021 (destroyCtx b' c.1))) ∧
      (∀ d, Accepted b 0x0022 false operatorOnly h x → tlook b.ctxs c.1 = some y → holds y h.session x = true →
        runCtx b c.1 = some d → exec (.ctxRun h) s = .next (did 0x0022 d)) ∧
      (∀ d, Accepted b 0x0023 false operatorOnly h x → tlook b.ctxs c.1 = some y → drainCtx b c.1 = some d →
        exec (.ctxDrain h) s = .next (did 0x0023 d)) ∧
      (∀ d, Accepted b 0x0025 false operatorOwner h x → tlook b.ctxs c.1 = some y → holds y h.session x = true →
        resumeCtx b c.1 = some d → exec (.resume h) s = .next (did 0x0025 d)) ∧
      (Accepted b 0x0026 false operatorOwner h x → tlook b.ctxs c.1 = some y →
        (y.confidential = true ∧ x.role = .owner ∧ y.ownerKey = some x.peer ∨
          y.confidential = false ∧ x.role = .operator) →
        exec (.streamAttach h) s = .next (did 0x0026 (attachCtx b c.1 h.session)))) ∧
    (Accepted b 0x0024 false operatorOwner h x → h.params.length = 7 → tlook b.ctxs c.1 = some y →
      holds y h.session x = true → (ctxOf b c.1).step.toNat ≤ par h 1 6 →
      exec (.checkpoint h) s = .next (did 0x0024 (setCtx b c.1 { ctxOf b c.1 with ckStep := some (par h 1 6) }))) ∧
    (Accepted b 0x0030 true operatorOnly h x → h.params.length = 0x50 → tlook b'.ctxs c.1 = some y →
      holds y h.session x = true → ((ctxOf b' c.1).st = .created ∨ (ctxOf b' c.1).st = .reset) →
      loadRefusal b' c.1 (par h 8 8) (h.params.drop 0x10) = none →
      let r := readOwn b' (par h 8 8) (rdNat b' (par h 8 8 + 8) 8)
      (r.1.2 = none → exec (.programLoad h) s = .next (did 0x0030 (loadImage r.1.1 c.1 (par h 8 8)))) ∧
      ∀ e, r.1.2 = some e → exec (.programLoad h) s = .next (answered s 0x0030 h
        (withClamps c.2 (refuse (memFault r.1.1 e) 0x1B)).1 (withClamps c.2 (refuse (memFault r.1.1 e) 0x1B)).2))

/-- Keys, firmware, locks, debug and resets (R432, R446, R459, R464, R468, R485, R510). Choices of the model that it rests
on: log 34, 74, 83, 104, 108. -/
def Obligations.ModuleCommands : Prop :=
  ∀ (s : State) (h : Cmd) (x : Session), Up s →
    let b := afterCounter s.blk h
    let fin (op n : Nat) (d : Block) : State := answered s op h (withClamps n (done d)).1 (withClamps n (done d)).2
    let slot := clampTo 0 3 (par h 1 1)
    (∀ y, Accepted s.blk 0x0031 true [.owner] h x → par h 0 1 = 1 → h.params.length = 66 →
      let c := ctxPar h 1
      tlook b.ctxs c.1 = some y → y.confidential = true → y.ownerKey = none → canKey b = true →
      exec (.keyLoadBindOwner h) s = .next (fin 0x0031 c.2 (setCtx b c.1 { y with
        ownerKey := some x.peer, boundDigest := some (h.params.drop 2),
        ledgerKey := contextKey x.z "LEDGER" c.1, ckptKey := contextKey x.z "CKPT" c.1 }))) ∧
    (Accepted s.blk 0x0031 true operatorOnly h x → par h 0 1 = 2 → h.params.length = 66 →
      exec (.keyLoadEnrolOperator h) s = .next (fin 0x0031 slot.2
        (nvWrite b fun v => { v with opsNv := v.opsNv.write (v.ops.set slot.1 (some (h.params.drop 2))) }))) ∧
    (Accepted s.blk 0x0031 true operatorOnly h x → par h 0 1 = 3 → h.params.length = 2 →
      b.vy.ops.getD slot.1 none ≠ some (Config.shake x.peer) →
      exec (.keyLoadRemoveOperator h) s =
        .next (fin 0x0031 slot.2 (nvWrite b fun v => { v with opsNv := v.opsNv.write (v.ops.set slot.1 none) }))) ∧
    (Accepted s.blk 0x0032 true operatorOnly h x →
      (b.hp.window = none → exec (.firmwareLoad h) s =
        .next (answered s 0x0032 h { b with hp := { b.hp with window := some [] } } { status := 0 })) ∧
      (∀ w d, b.hp.window = some w → installWindow { b with hp := { b.hp with window := none } } w = .inr d →
        exec (.firmwareLoad h) s = .next (answered s 0x0032 h d { status := 0 }))) ∧
    (Accepted s.blk 0x0040 true operatorOnly h x → h.params.length = 4 → exec (.lock h) s = .next (answered s 0x0040 h
      { b with chip := { b.chip with locks := b.chip.locks ||| BitVec.ofNat 6 (par h 0 4) } } { status := 0 })) ∧
    (Accepted s.blk 0x0041 true operatorOnly h x → (∀ e ∈ b.ctxs, e.2.confidential = false) →
      exec (.debug h) s = .next (answered s 0x0041 h { b with chip := { b.chip with debugOn := true } } { status := 0 })) ∧
    (Accepted s.blk 0x0050 true operatorOnly h x → h.params.length = 4 → par h 0 1 ≤ 1 →
      exec (.reset h) s = .next (answered s 0x0050 h { b with pw := { b.pw with
        phase := .resetting (par h 0 1 == 1), clearItin := (par h 1 1).testBit 0 } } { status := 0 })) ∧
    (Accepted s.blk 0x0050 true operatorOnly h x → h.params.length = 4 → par h 0 1 = 2 →
      let c := clampTo 0 15 (par h 2 2)
      resident b c.1 = true → exec (.reset h) s =
        .next (fin 0x0050 c.2 { b with pw := { b.pw with resetCtx := some c.1 } })) ∧
    (Accepted s.blk 0x0050 true operatorOnly h x → h.params.length = 4 → par h 0 1 = 3 →
      let t := clampTo 0 1151 (par h 2 2)
      tilePresent b t.1 = true → exec (.reset h) s = .next (fin 0x0050 t.2 (tileReset t.1 b)))

/-- Fleet test runs and packages, sparing marks and torus tables (R329, R330, R425, R499 to R501). Choices of the model
that it rests on: log 79, 90. -/
def Obligations.TestAndTableCommands : Prop :=
  ∀ (s : State) (h : Cmd) (x : Session), Up s →
    let b := afterCounter s.blk h
    let pkg := par h 1 1
    let fin (n : Nat) (d : Block) : State := answered s 0x0070 h (withClamps n (done d)).1 (withClamps n (done d)).2
    (Accepted s.blk 0x0060 true operatorOnly h x → h.params.length = 0x20 → par h 0 1 = 0 → par h 2 1 ≤ 2 →
      par h 3 1 ≤ 2 → runnableAny b = false → b.ft.run = none → (pkg = 0 ∨ ∃ p ∈ b.ft.pkgs, p.1 = pkg) →
      let n := (clampTo 1 65535 (par h 4 2)).2 + (clampTo 1 3600000 (par h 8 4)).2
      let m := BitVec.ofNat 32 (par h 0x10 4)
      exec (.fleetTestRun h) s = .next (answered s 0x0060 h
        (startRun ((linksOf m).foldl runLinkDown (hpClamp b n)) pkg 0 none {
          volt := par h 2 1, clk := par h 3 1, reps := (clampTo 1 65535 (par h 4 2)).1
          limit := (clampTo 1 3600000 (par h 8 4)).1, regions := BitVec.ofNat 12 (par h 0x0C 2)
          buses := BitVec.ofNat 16 (par h 0x0E 2), links := m, patterns := BitVec.ofNat 64 (par h 0x18 8) })
        { status := 0, detail := b.ft.runNo })) ∧
    (Accepted s.blk 0x0060 true operatorOnly h x → h.params.length = 0x20 → par h 0 1 = 1 → (∃ p ∈ b.ft.pkgs, p.1 = pkg) →
      exec (.fleetTestRemove h) s = .next (answered s 0x0060 h
        { b with ft := { b.ft with pkgs := b.ft.pkgs.filter fun p => p.1 != pkg } } { status := 0 })) ∧
    (Accepted s.blk 0x0070 true operatorOnly h x → h.params.length = 4 → b.chip.policy.getLsbD 1 = false →
      let t := clampTo 0 1151 (par h 2 2)
      let k := clampTo 0 11 (par h 1 1)
      let ch := clampTo 0 127 (par h 2 2)
      let l := clampTo 0 31 (par h 2 2)
      let marked (m : Nat) : Block :=
        { b with pw := { b.pw with marks := if b.pw.marks.contains m then b.pw.marks else b.pw.marks ++ [m] } }
      (par h 0 1 = 0 → exec (.spareOverride h) s =
        .next (fin t.2 (setTileHw b t.1 { tileHw b t.1 with retire := true }))) ∧
      (par h 0 1 = 1 → exec (.spareOverride h) s =
        .next (fin (k.2 + ch.2) (marked (2 ^ 24 + k.1 * 2 ^ 16 + ch.1)))) ∧
      (par h 0 1 = 2 → exec (.spareOverride h) s = .next (fin l.2 (marked (2 ^ 25 + l.1))))) ∧
    (Accepted s.blk 0x0071 true operatorOnly h x →
      let t := readTable h.params
      tableRefusal b h.params.length t = none →
      exec (.torusTable h) s = .next (answered s 0x0071 h
        (storeTable (blkClamp (applyTable b t) 0 t.clamps) h.params) { status := 0, detail := t.clamps }))

/-- Bulk frames of an open session that may touch the context's pages: a write stores its bytes, one with a signal then
adds to its counter word, a read streams the bytes with the HT.SEQ of its request, zero bytes where a word of them
cannot be corrected (R268). A write to control space is ignored and counted; a refused frame counts, and its session
hears event 0x0B with the reason (R431, R432, R463, R469). Choices of the model that it rests on: log 57, 77. -/
def Obligations.BulkFrames : Prop :=
  ∀ (s : State) (id seq c l : Nat) (v : Session), Up s → tlook s.blk.sessions id = some v →
    let b := s.blk
    let refused (why : Nat) : State := became s (queueEvent
      { b with hp := { b.hp with bulkRefused := satAdd b.hp.bulkRefused 1 }, eventNo := b.eventNo + 1 } id b.eventNo
      { kind := 0x0B, ctx := c, body := [BitVec.ofNat 64 seq, BitVec.ofNat 64 why] })
    (∀ x : List Byte, isControl l = false → b.hp.window = none → bulkRefusal b v c l x.length 0x50 = none →
      exec (.bulkWrite id seq c l x) s = .next (became s (settleAll (retryReplay (bulkStore b l x)))) ∧
      ∀ ctr inc,
        let a := ctr / 8 * 8
        bulkRefusal b v c a 8 0x50 = none →
        let d := retryReplay (bulkStore b l x)
        exec (.bulkWriteSignal id seq c l x ctr inc) s = .next (became s
          (settleAll (updateMem (wakeStack d a) a a 8 (addWord inc)).1))) ∧
    (∀ x : List Byte, isControl l = true →
      exec (.bulkWrite id seq c l x) s = .next (became s (settleAll (blkClamp b (blkIndex l) 1)))) ∧
    (∀ (x : List Byte) ctr inc why, bulkRefusal b v c (ctr / 8 * 8) 8 0x50 = some why →
      exec (.bulkWriteSignal id seq c l x ctr inc) s = .next (refused why)) ∧
    (∀ n, n ≤ 2 ^ 24 → isControl l = false → bulkRefusal b v c l n 0x51 = none →
      let r := readOwn (wakeStack b l) l n
      (r.1.2 = none →
        exec (.bulkReadRequest id seq c l n) s = .next (became s (streamUnit r.1.1 id 4 c seq l r.2))) ∧
      ∀ e, r.1.2 = some e → exec (.bulkReadRequest id seq c l n) s =
        .next (became s (streamUnit (memFault r.1.1 e) id 4 c seq l (List.replicate n 0)))) ∧
    (∀ n, 2 ^ 24 < n → exec (.bulkReadRequest id seq c l n) s = .next (refused 0x54))

/-! ### Control registers -/

/-- The control bits of tiles, Derricks, Reckoners and memory controllers, written by a register write to a block with no
pending half of a pair (R130, R263, R287, R386, R441, R448). Choices of the model that it rests on: log 16, 34, 48. -/
def Obligations.UnitControlRegisters : Prop :=
  ∀ (s : State), Up s →
    let b := s.blk
    let quiet (n : Nat) : Prop := (blkOf b n).pair = none
    (∀ t : Fin 1152, tilePresent b t.val = true → quiet (0x10000 + t.val) →
      let h := tileHw b t.val
      let u := UnitId.tile (tile1152 t.val)
      let on := setTileHw b t.val { h with halt := false }
      let cut := setTileHw b t.val { h with
        halt := true, faultCause := 0, faultBank := 0, faultPc := 0, faultConf := false
        gateWake := if asleep b t.val then satAdd h.gateWake 1 else h.gateWake }
      exec (.tileCtrlHalt t true) s = .next (became s (setTileHw b t.val { h with halt := true })) ∧
      (b.running = none →
        exec (.tileCtrlHalt t false) s = .next (became s on) ∧ exec (.tileReset t) s = .next (became s cut)) ∧
      (∀ c, b.running = some c →
        exec (.tileCtrlHalt t false) s = .next (became s (settleAll
          (if (img on c u).run = .halted ∧ (img on c u).started = false then startUnit c on u else on))) ∧
        exec (.tileReset t) s = .next (became s (setImg (takeWake cut u) c u { ({} : UnitImg) with
          cnt := (img b c u).cnt, ops := (img b c u).ops, refus := (img b c u).refus, subs := (img b c u).subs })))) ∧
    (∀ k : Fin 12, quiet (0x103 + 16 * k.val) →
      let d := drkOf b k.val
      exec (.drkCtrlHalt k true) s = .next (became s (setDrk b k.val { d with halt := true })) ∧
      exec (.drkCtrlHalt k false) s = .next (became s (settleAll (setDrk b k.val { d with halt := false }))) ∧
      exec (.drkCtrlReset k) s = .next (became s (setDrk b k.val { d with
        queue := [], subs := [], structs := [], envs := [], ctx := d.ctx.map fun e => (e.1, { e.2 with cur := none }) })) ∧
      (∀ v : U32,
        (∀ c, b.running = some c → (ctxOf b c).replay = true → exec (.drkForceWrite k v) s =
          .next (became s (setDrk b k.val { d with
            ctx := tins d.ctx c { tget d.ctx {} c with force := v &&& 0x3FFFFFF } }))) ∧
        ((∀ c, b.running = some c → (ctxOf b c).replay = false) →
          exec (.drkForceWrite k v) s = .next (became s (blkClamp b (0x103 + 16 * k.val) 1))))) ∧
    (∀ k : Fin 12, quiet (0x102 + 16 * k.val) →
      let r := rckOf b k.val
      exec (.rckCtrlHalt k true) s = .next (became s (setRck b k.val { r with halt := true })) ∧
      exec (.rckCtrlHalt k false) s = .next (became s (settleAll (setRck b k.val { r with halt := false })))) ∧
    (∀ k : Fin 12, quiet (0x101 + 16 * k.val) →
      let m := mcOf b k.val
      exec (.mcCtrlFlush k) s = .next (became s (setMc
        ((m.cache.filter fun e => e.2.dirty).foldl (fun z e => writeBack z k.val e.2.slot) b) k.val { m with
          cacheWb := satAdd m.cacheWb (m.cache.filter fun e => e.2.dirty).length,
          cache := m.cache.map fun e =>
            if e.2.dirty then (e.1, { e.2 with dirty := false, stack := slotBytes b k.val e.2.slot }) else e })))

/-- The control and test bits of links and of the host port. A link is held down or trained again; a lane pattern is taken
only while the link is down, and clears the counts; the port's pattern only while the port is disabled (R325, R417,
R436, R494, R496, R512, R513). Choices of the model that it rests on: log 16, 55, 60. -/
def Obligations.LinkAndPortControlRegisters : Prop :=
  ∀ (s : State), Up s →
    let b := s.blk
    (∀ k : Fin 32, (blkOf b (0x80 + k.val)).pair = none →
      let l := linkOf b k.val
      let held := setLink b k.val { l with disable := true }
      let freed := setLink b k.val { l with disable := false }
      let idle : Prop := l.st = 9 ∨ l.st = 10 ∨ l.st = 11
      exec (.linkCtrlDisable k true) s = .next (became s (if l.st = 11 then held else dropLink held k.val 11)) ∧
      exec (.linkCtrlDisable k false) s = .next (became s (if l.st = 11 then setLinkSt freed k.val 1 else freed)) ∧
      exec (.linkCtrlRetrain k) s = .next (became s (if l.st = 7 ∨ l.st = 8 then retrain b k.val
        else if l.st = 9 ∨ l.st = 10 then setLinkSt b k.val 1 else b)) ∧
      (∀ x, exec (.linkCtrlNarrowEn k x) s = .next (became s (setLink b k.val { l with narrowEn := x }))) ∧
      (∀ p lp ln, ¬ idle →
        exec (.laneTestPattern k p lp ln) s = .next (became s (blkClamp b (0x80 + k.val) 1)) ∧
        exec (.laneTestInject k) s = .next (became s (blkClamp b (0x80 + k.val) 1))) ∧
      (∀ p : BitVec 3, ∀ lp : BitVec 2, ∀ ln, idle → p.toNat ≤ 4 → lp.toNat ≤ 2 →
        exec (.laneTestPattern k p lp ln) s = .next (became s (setLink b k.val { l with
          pattern := p, loop := lp, lanes := ln, locked := 0, lost := 0, errs := [], bits := 0, flitCorr := 0,
          flitUncorr := 0 }))) ∧
      (idle → l.loop = 1 → 1 ≤ l.pattern.toNat → l.pattern.toNat ≤ 3 →
        ∃ d, exec (.laneTestInject k) s = .next (became s d) ∧ (∀ j, j ≠ k.val → linkOf d j = linkOf b j) ∧
          (∀ j < 9, tget (linkOf d k.val).errs 0 j =
            if l.lanes.getLsbD j ∧ l.locked.getLsbD j then satAdd (tget l.errs 0 j) 1 else tget l.errs 0 j))) ∧
    ((blkOf b 0xC0).pair = none →
      let h := b.hp
      (∀ x, exec (.hpCtrlDisable x) s = .next (became s { b with hp := { h with
        disable := x, link := if x then 0 else h.link } })) ∧
      (∀ x, exec (.hpCtrlForce800 x) s = .next (became s { b with hp := { h with
        force800 := x, link := if x ∧ h.link = 2 then 3 else h.link } })) ∧
      (∀ v : BitVec 12,
        (h.disable = false → exec (.hpTestPattern v) s = .next (became s (blkClamp b 0xC0 1))) ∧
        (h.disable = true → v.toNat % 8 ≤ 4 → exec (.hpTestPattern v) s = .next (became s { b with hp := { h with
          test := v.setWidth 16, testErr := [] } }))))

/-- A write of a shadowed register waits in its shadow, clamped into its range; UPD.GO applies the block's shadows, a
group strobe those of every block joined to the group; a guarded pair whose second half is the complement of the first
takes effect, one that is not is discarded and counted, as is one whose window is used up; a write of 1 clears an
event; a read of a counter's low word keeps its high word (R132, R438, R439, R442 to R445). Choices of the model that
it rests on: log 16. -/
def Obligations.RegisterWrites : Prop :=
  ∀ (s : State), Up s →
    let b := s.blk
    (∀ n, (blkOf b n).pair = none → blkAt b n ≠ .none →
      exec (.updGo n) s = .next (became s ((blkOf b n).shadow.foldl (fun z e => applyField z (blkAt z n) e.1 e.2)
        (setBlk b n { blkOf b n with shadow := [], pending := false }))) ∧
      (∀ o v r, o < 0x10000 → o % 4 = 0 → o ≠ 0xFFF0 → o ≠ 0xFFF4 → shadowFix (blkAt b n) o v = some r →
        let x := blkOf b n
        exec (.registerWrite (ctlAddr n o) v) s =
          .next (became s (blkClamp (setBlk b n { x with shadow := tins x.shadow o r.1, pending := true }) n r.2)))) ∧
    ((blkOf b 0).pair = none →
      (∀ fire : BitVec 16, exec (.groupStrobe fire) s = .next (became s
        (((b.blks.filter fun e => e.2.join && fire.getLsbD e.2.group.toNat).map Prod.fst).foldl applyBlk b))) ∧
      (∀ v : U32, exec (.chipEventClear false v) s = .next (became s { b with chipEvent := b.chipEvent &&& ~~~ v })) ∧
      (∀ x y : U32, b.chip.locks.getLsbD 0 = false →
        ∃ d, exec (.guardedPairWrite x y) s = .next (became s d) ∧ (blkOf d 0).pair = none ∧
          (y = ~~~ x → d.chip = { b.chip with policy := x.setWidth 3 } ∧ d.pw.recovery = x.getLsbD 2) ∧
          (y ≠ ~~~ x → d.chip = { b.chip with guardDrop := satAdd b.chip.guardDrop 1, guardLast := 8 } ∧
            d.chipEvent = b.chipEvent ||| 1)) ∧
      (∀ x y : U32, b.chip.locks.getLsbD 0 = true →
        ∃ d, exec (.guardedPairWrite x y) s = .next (became s d) ∧ d.chip.policy = b.chip.policy ∧
          d.chip.guardDrop = satAdd (satAdd b.chip.guardDrop 1) 1)) ∧
    (∀ n a v, (blkOf b n).pair = some (a, v, 0) →
      exec (.guardWindowExpiry n) s = .next (became s
        { setBlk b n { blkOf b n with pair := none } with
          chip := { b.chip with
            guardDrop := satAdd b.chip.guardDrop 1, guardLast := BitVec.ofNat 32 ((n * 0x10000 + a) / 4) }
          chipEvent := b.chipEvent ||| 1 })) ∧
    (∀ l x, counter64 b (l / 4 * 4) = some x →
      exec (.counterLowRead l) s = .next (became s
        { b with latches := tins b.latches (spaceOff (l / 4 * 4) / 4 + 1) (hiWord x) }))

/-! ### Power, start and reset -/

/-- PWR_EN, RST_L and the input: a rise starts a module whose input is good, a fall stops it in order, RST_L begins a
reset; the lockout and the overvoltage trip end in Standby with their causes, nothing volatile left; the input's
return starts it again (R472, R474 to R476, R489, R520). The power cap's level follows the mean input power of each
window; a critical band that lasts drains the running context, which is saved at once where no issued instruction of
it still waits; a package at 105 degrees alerts, at 115 degrees the running context is lost and no other goes on
(R160, R473, R477). Choices of the model that it rests on: log 8, 73, 94. -/
def Obligations.PowerInputsAndTemperature : Prop :=
  (∀ (s : State),
      let b := s.blk
      let p := b.pw
      let nowPw (q : Power) : State := became s { b with pw := q }
      let bad (v last : Nat) : BitVec 6 := (if v < 4000 ∧ last < 4000 then 1 else 0) ||| (if 5950 < v ∧ 5950 < last then 2 else 0)
      let off (d : Block) (stop : BitVec 4) : Prop :=
        d.pw.phase = .standby ∧ d.pw.stop = stop ∧ d.ctxs = [] ∧ d.running = none ∧ d.sessions = [] ∧ d.mem = []
      let root (d : Block) : Prop := d.hp.lastCtr = BitVec.ofNat 64 (b.vy.ctrCeil - 1) ∧ d.vy.next = b.vy.ceil
      (p.phase = .standby → 4000 ≤ p.vin.toNat →
        exec .pwrEnRise s = .next (nowPw { p with pwrEn := true, phase := .starting })) ∧
      (p.phase ≠ .standby → exec .pwrEnFall s = .next (became s (orderlyStop { b with pw := { p with pwrEn := false } } 1))) ∧
      (p.phase = .standby → exec .pwrEnFall s = .next (nowPw { p with pwrEn := false })) ∧
      (Up s → p.pwrEn = true → exec .rstLAssert s = .next (nowPw { p with phase := .resetting p.pinRetain })) ∧
      (∀ v : U16,
        let starts := p.phase = .standby ∧ p.pwrEn = true ∧ p.vin.toNat < 4000 ∧ 4000 ≤ v.toNat ∧ p.stop ≠ 2 ∧ p.stop ≠ 3
        ∃ q : Power, exec (.inputSample v) s = .next (nowPw q) ∧ q.vin = v ∧ q.lastVin = p.vin.toNat ∧
          q.alert.toNat % 4 = (p.alert ||| bad v.toNat p.vin.toNat).toNat % 4 ∧
          (starts → q.phase = .starting) ∧ (¬ starts → q.phase = p.phase)) ∧
      (∃ d, exec .undervoltageLockout s = .next (became s d) ∧ off d 2 ∧ root d ∧ d.pw.uvlo = satAdd p.uvlo 1 ∧
        d.pw.faultL = p.faultL) ∧
      (∃ d, exec .overvoltageTrip s = .next (became s d) ∧ off d 3 ∧ root d ∧ d.pw.ov = satAdd p.ov 1 ∧ d.pw.faultL = true) ∧
      (p.phase ≠ .standby → ∃ d, exec .referenceLost s = .next (became s d) ∧ off d 5 ∧ d.pw.alert = 32) ∧
      (p.phase = .standby → p.pwrEn = true → 4000 ≤ p.vin.toNat →
        exec .inputRecoveryStart s = .next (nowPw { p with phase := .starting }))) ∧
  (∀ (s : State), Up s →
      let b := s.blk
      let p := b.pw
      (∀ w : U16,
        let l := if p.cap.toNat < w.toNat then min 3 (p.capLevel + 1) else p.capLevel - 1
        exec (.powerCapWindow w) s = .next (became s { b with pw := { p with
          pin := w, capLevel := l, capMs := satAdd p.capMs (if p.capLevel = 0 then 0 else 1),
          alert := if l = 0 then p.alert else p.alert ||| 4 } })) ∧
      (∀ c, b.running = some c → p.hot ≠ 0 →
        exec .thermalCriticalPersist s = .next (became s { b with draining := true }) ∧
        (waiters b = [] → b.chip.stepOnce = none → exec .thermalCriticalPersist s =
          .next { s with blk := schedule (haltCtx (abandonWaits { b with draining := true } c) c .drained) })) ∧
      exec .packageThermalAlert s = .next (became s { b with pw := { p with alert := p.alert ||| 8 } }) ∧
      (∀ c, b.running = some c →
        let l := destroyCtx b c
        ∃ d, exec .packageThermalTrip s = .next (became s d) ∧
          d.ctxs = l.ctxs.map (fun e => (e.1, if e.2.st = .runnable then { e.2 with st := .drained } else e.2)) ∧
          d.pw.regionPll = [] ∧ d.pw.stop = 4 ∧ d.pw.faultL = true ∧ d.pw.therm = satAdd l.pw.therm 1))

/-- A start runs its steps in order: a rail or the reference that fails stops it with FAULT_L; a verified image lets steps
4 to 8 run and the module is up with its time recorded; one that is not verified stops it. A module reset starts from
step 2, a retry of the recovery from step 3. A context reset leaves every register of its context zero (R479 to R481,
R485, R486, R488). Choices of the model that it rests on: log 14, 74, 85, 86, 87, 108. -/
def Obligations.StartsAndResets : Prop :=
  ∀ (s : State) (io : ItinIn),
    let b := s.blk
    let cold := beginItin { bare b with pw := { (bare b).pw with start := 0, starts := b.pw.starts + 1, retiredIn := [] } }
    (b.pw.phase = .starting →
      (io.railsOk = false → exec (.coldStart io) s = .next (became s (stopStart (outcome 0 4 0 1 0 cold)))) ∧
      (io.railsOk = true → io.refOk = false →
        exec (.coldStart io) s = .next (became s (stopStart (outcome 1 4 0 1 0 (outcome 0 1 0 1 0 cold))))) ∧
      (io.railsOk = true → io.refOk = true →
        exec (.coldStart io) s =
          .next (became s (fromVerify io (nvRead io (outcome 1 1 0 1 0 (outcome 0 1 0 1 0 cold))))))) ∧
    (∀ retain, b.pw.phase = .resetting retain →
      let r := resetBlock b retain
      exec (.moduleReset io) s = .next (became s (fromVerify io (nvRead io (beginItin { r with pw := { r.pw with
        phase := .starting, start := if retain then 2 else 1, starts := r.pw.starts + 1 } }))))) ∧
    (b.pw.phase = .stopped → b.pw.recovering = true → b.pw.pwrEn = true →
      exec (.networkRecoveryRetry io) s = .next (became s (fromVerify io b))) ∧
    (∀ d, imageRefusal d d.pw.flash = none →
      (fromVerify io d).pw.phase = .up ∧ (fromVerify io d).pw.itinTime = io.ms ∧
        (fromVerify io d).vy.keyReady = canKey (fromVerify io d)) ∧
    (∀ d, imageRefusal d d.pw.flash ≠ none → d.pw.recovery = false →
      (fromVerify io d).pw.phase = .stopped ∧ (fromVerify io d).pw.faultL = true) ∧
    (∀ c : Fin 16, Up s → b.pw.resetCtx = some c.val → resident b c.val = true →
      let d := resetCtx { b with pw := { b.pw with resetCtx := none } } c.val
      exec (.contextReset c) s = .next (became s d) ∧
        (∀ u r, sreg (img d c.val u) r = 0 ∧ freg (img d c.val u) r = 0) ∧ (ctxOf d c.val).seedPend = [] ∧
        (ctxOf d c.val).stepClamps = 0)

/-- A run's end makes a record of each failure, gives the links back and sends event 0x0A; lane checkers gain and lose
lock while they check; the test access port takes an instruction that is defined and open, else BYPASS; the debug port
acts while it is live; a failed health test stops the root's key generation (R453, R495, R501 to R507, R509, R510).
Choices of the model that it rests on: log 16, 76, 90, 92. -/
def Obligations.TestPortsAndRuns : Prop :=
  ∀ (s : State), Up s →
    let b := s.blk
    (∀ fails limit r, b.ft.run = some r →
      let made := fails.foldl (fun z f => boreFault (boreRecord r.trigger z f) f) b
      let ended := (linksOf r.sel.links).foldl runLinkUp
        { made with ft := { made.ft with run := none, st := 0, pkg := 0, trigger := 0, runs := satAdd made.ft.runs 1 } }
      let result : Nat := if limit = true then 2 else if fails = [] then 0 else 1
      let body : List U64 := [r.num, r.trigger, result, fails.length, ended.ft.recs.length].map (BitVec.ofNat 64)
      exec (.boreRunEnd fails limit) s = .next (became s (sendEvent ended { kind := 10, ctx := 255, body := body }))) ∧
    (∀ (k : Fin 32) (j : Fin 9), checking b k.val j.val = true →
      let l := linkOf b k.val
      let m := 1#9 <<< j.val
      exec (.laneLockAcquired k j) s = .next (became s (setLink b k.val { l with locked := l.locked ||| m })) ∧
      (l.locked.getLsbD j.val = true → exec (.laneLockLost k j) s = .next (became s (setLink b k.val { l with
        locked := l.locked &&& ~~~ m, lost := l.lost ||| m,
        errs := tput l.errs 0 j.val (satAdd (tget l.errs 0 j.val) 16) })))) ∧
    (∀ code : Byte,
      let tap (t : Byte) : Block := { b with ft := { b.ft with tap := t } }
      (code.toNat ∈ [0x00, 0x06, 0x07] → exec (.testAccessPort code) s = .next (became s (tap code))) ∧
      (code = 0x01 → exec (.testAccessPort code) s = .next (became s
        { tap 1 with egress := b.egress ++ [.scan (leBytes 4 (idcode b).toNat)] })) ∧
      (code.toNat ∈ [0x02, 0x04, 0x05, 0x20] → exec (.testAccessPort code) s =
        .next (became s (tap (if b.ctxs.any (fun e => e.2.confidential) then 0xFF else code)))) ∧
      (code.toNat ∉ [0x00, 0x01, 0x02, 0x04, 0x05, 0x06, 0x07, 0x20] →
        exec (.testAccessPort code) s = .next (became s (tap 0xFF)))) ∧
    (debugLive b = false → ∀ d, exec (.debugPortAccess d) s = .next (became s b)) ∧
    (debugLive b = true →
      (∀ l, let b1 := latchLow b (l / 4 * 4)
        exec (.debugPortAccess (.regRead l)) s = .next (became s
          { b1 with egress := b1.egress ++ [.scan (leBytes 4 (ctlRead b (l / 4 * 4)).toNat)] })) ∧
      (∀ l v, exec (.debugPortAccess (.regWrite l v)) s = .next (became s (regWrite l v b))) ∧
      (∀ l n, exec (.debugPortAccess (.memRead l n)) s = .next (became s
        { b with egress := b.egress ++ [.scan ((List.range n).map fun j => debugByte b (l + j))] })) ∧
      (∀ l x, exec (.debugPortAccess (.memWrite l x)) s = .next (became s (debugStore b l x))) ∧
      (∀ u x, exec (.debugPortAccess (.halt u x)) s = .next (became s (debugHalt u x b))) ∧
      (∀ u, heldHalted b u = true → exec (.debugPortAccess (.step u)) s =
        .next (became s (settleAll { b with chip := { b.chip with stepOnce := some u } })))) ∧
    exec .entropyHealthFailure s = .next (became s
      { b with vy := { b.vy with rngFault := true }, pw := { b.pw with faultL := true } })

/-! ### Reset, and the rules that hold of every step -/

/-- The module right after reset: Standby, nothing resident, nothing waiting, no retained content; the cap at 4 800 W, GA
unconnected, network recovery allowed; every memory byte unlisted, every register of every unit zero (R136, R442,
R450, R475, R481, R491). Authority slot 0 is the model's choice (log 10). The block is at rest in the sense of the
invariant. Choices of the model that it rests on: log 3, 7, 9, 10. -/
def Obligations.ResetState : Prop :=
  let b := State.reset.blk
  State.reset.pending = [] ∧ Rested b ∧ b.pw.phase = .standby ∧ b.pw.pwrEn = false ∧ b.pw.faultL = false ∧
    b.pw.cap = 4800 ∧ b.pw.ga = 63 ∧ b.pw.recovery = true ∧ b.running = none ∧ b.ctxs = [] ∧ b.mem = [] ∧ b.pages = [] ∧
    b.sessions = [] ∧ b.blks = [] ∧ b.latches = [] ∧ b.chipEvent = 0 ∧ b.chip.locks = 0 ∧ b.chip.guardDrop = 0 ∧
    b.vy.rngFault = false ∧ b.geo.own = 0 ∧ b.vy.slotValid = 1 ∧ Memory.wf b ∧
    (∀ c u r, sreg (img b c u) r = 0 ∧ freg (img b c u) r = 0 ∧ treg (img b c u) 0 = 0) ∧ (∀ k, rdKey b k = 0)

/-- No step leaves a runnable context idle: a block at rest stays at rest, whatever command comes. With no context running
and none held by a fleet test run, none is runnable and the region PLLs stand still (R23, R467, R475). -/
def Obligations.RestedKept : Prop :=
  ∀ s t : State, Rested s.blk → step s = .next t → Rested t.blk

/-! ### Seams -/

/-- Adding values to a seam, one after the other: NaN and the infinities set their flags, a finite value adds its units,
cut to the addend range, and sets the flag of what it lost; each addend counts until the count holds. The content is
the same for every order of the same addends, and every finite value of the narrower formats adds exactly (R49). -/
def Obligations.SeamAdditionRules : Prop :=
  (∀ (s : Seam) (l : List FVal),
    let r := seamSum s l
    r.v = s.v + BitVec.ofInt 384 (l.map seamTerm).sum ∧
    r.count.toNat = (if s.count.toNat + l.length ≤ 2 ^ 48 - 1 then s.count.toNat + l.length else 2 ^ 48 - 1) ∧
    r.nan = (s.nan || l.any (· == .nan)) ∧ r.pinf = (s.pinf || l.any (· == .inf false)) ∧
    r.ninf = (s.ninf || l.any (· == .inf true)) ∧
    (∀ m, l.Perm m → seamSum s m = r)) ∧
  (∀ (s : Seam) (sg : Bool) (m : Nat) (e : Int),
    let r := seamAdd (.fin sg m e) s
    let u := (m : ℚ) * 2 ^ (e + 192)
    (2 ^ 320 ≤ u → r.sat = true ∧ r.under = s.under ∧ seamTerm (.fin sg m e) = (if sg then -1 else 1) * (2 ^ 320 - 1)) ∧
    (u < 2 ^ 320 → r.sat = s.sat ∧ (r.under = true ↔ s.under = true ∨ (⌊u⌋ : ℚ) ≠ u) ∧
      seamTerm (.fin sg m e) = (if sg then -1 else 1) * ⌊u⌋)) ∧
  (∀ f ∈ [Fmt.f32, .f16, .bf16, .h8, .w8, .n4], ∀ c < 2 ^ fmtWidth f, ∀ sg m e, fdecode f c = .fin sg m e →
    (m : ℚ) * 2 ^ (e + 192) < 2 ^ 320 ∧ (⌊(m : ℚ) * 2 ^ (e + 192)⌋ : ℚ) = (m : ℚ) * 2 ^ (e + 192))

/-- At most 2^63 values into an empty seam cannot overflow it: its integer is the exact sum of what they add (R50). -/
def Obligations.SeamHolds : Prop :=
  ∀ l : List FVal, l.length ≤ 2 ^ 63 → (seamSum seamEmpty l).v.toInt = (l.map seamTerm).sum

/-- A seam merged into another gives what adding both lists of values to it gives, in any split (R49, R91). -/
def Obligations.SeamMergeAgrees : Prop :=
  ∀ (s : Seam) (l m : List FVal), s.count.toNat + l.length + m.length < 2 ^ 48 →
    seamMerge (seamSum seamEmpty l) (seamSum s m) = seamSum s (m ++ l)

/-- A slot is 64 bytes: V in the first 48, the flags in the next two, the count in the next six, zeros; a slot of zero
bytes is an empty seam, and every seam reads back from its slot (R51). -/
def Obligations.SeamSlots : Prop :=
  (∀ x : Seam,
    let l := seamBytes x
    l.length = 64 ∧ leNat (l.take 48) = x.v.toNat ∧ leNat ((l.drop 50).take 6) = x.count.toNat ∧
    (let f := leNat ((l.drop 48).take 2)
     f < 32 ∧ f.testBit 0 = x.nan ∧ f.testBit 1 = x.pinf ∧ f.testBit 2 = x.ninf ∧ f.testBit 3 = x.sat ∧
       f.testBit 4 = x.under) ∧
    (∀ j, 56 ≤ j → j < 64 → l.getD j 0 = 0) ∧ seamOfBytes l = x) ∧
  seamOfBytes (List.replicate 64 0) = seamEmpty

/-- A seam rounds to binary32 or binary64 by its flags first: NaN seen, both infinities (a NaN that counts NAN_GEN), one
infinity, zero as +0, else its exact value rounded to nearest even; SEAM_SAT and SEAM_UNDER raise their events (R52). -/
def Obligations.SeamRounding : Prop :=
  ∀ (f : Fmt) (x : Seam),
    let r := seamRound f x
    let flat (v : FVal) : FVal := fdecode f (convertTo f .nearest false 0 0 v false).1
    r.2.ssat = x.sat.toNat ∧ r.2.sunder = x.under.toNat ∧
    r.2.nangen = (!x.nan && x.pinf && x.ninf).toNat ∧
    (x.nan = true → r.1 = flat .nan) ∧
    (x.nan = false → x.pinf = true → x.ninf = true → r.1 = flat .nan) ∧
    (x.nan = false → x.pinf = true → x.ninf = false → r.1 = flat (.inf false)) ∧
    (x.nan = false → x.pinf = false → x.ninf = true → r.1 = flat (.inf true)) ∧
    (x.nan = false → x.pinf = false → x.ninf = false →
      (x.v.toInt = 0 → r.1 = flat (.fin false 0 0)) ∧
      (x.v.toInt ≠ 0 → r.1 = flat (.fin (decide (x.v.toInt < 0)) x.v.toInt.natAbs (-192))))

/-! ### Encodings -/

/-- A signature record reads back from its CBOR item, whatever its fields hold, within what CBOR numbers and the module's
arrays hold (R505). A house message reads back from its 64 bytes (R353). -/
def Obligations.RecordsReadBack : Prop :=
  (∀ r : SigRec, r.acked = false →
      (∀ n ∈ [r.num, r.own, r.total, r.trigger, r.outcome], n < 2 ^ 64) →
      r.serial.length < 2 ^ 64 → r.firmware.length < 2 ^ 64 →
      (∀ x ∈ r.unit ++ r.conditions, -2 ^ 64 ≤ x ∧ x < 2 ^ 64) → r.unit.length ≤ 64 → r.conditions.length ≤ 64 →
      (∀ x ∈ r.pattern, x < 2 ^ 64) → r.pattern.length ≤ 64 → r.cells.length ≤ 64 →
      (∀ c ∈ r.cells, c.1 < 2 ^ 64 ∧ c.2.1 < 2 ^ 64 ∧ c.2.2.1.length < 2 ^ 64 ∧ c.2.2.2.length < 2 ^ 64) →
      readSig (sigCbor r) = some r) ∧
  (∀ m : HouseMsg, m.kind < 2 ^ 8 → m.house < 2 ^ 16 → m.body.length = 32 →
      (hmBytes m).length = 64 ∧ readHm (hmBytes m) = m)
end

