-- ==== Sys2Proof/Laws/Tables.lean ====
section
/-!
SUPPORT. Tables: what a lookup finds after an entry is listed, stored or removed, and that the keys stay rising.
-/
namespace Sys2Proof

variable {α : Type}

@[simp] theorem tlook_tins_self (t : Tbl α) (k : Nat) (v : α) : tlook (tins t k v) k = some v := by
  induction t with
  | nil => simp [tins, tlook]
  | cons e r ih =>
    obtain ⟨j, w⟩ := e
    by_cases h : k < j
    · simp [tins, h, tlook]
    · by_cases h2 : k = j
      · simp [tins, h2, tlook]
      · simp [tins, h, h2, tlook, Ne.symm h2, ih]

theorem tlook_tins_other (t : Tbl α) (k i : Nat) (v : α) (h : i ≠ k) : tlook (tins t k v) i = tlook t i := by
  induction t with
  | nil => simp [tins, tlook, Ne.symm h]
  | cons e r ih =>
    obtain ⟨j, w⟩ := e
    by_cases h1 : k < j
    · simp [tins, h1, tlook, Ne.symm h]
    · by_cases h2 : k = j
      · subst h2; simp [tins, tlook, Ne.symm h]
      · simp [tins, h1, h2, tlook, ih]

@[simp] theorem tlook_tdel_self (t : Tbl α) (k : Nat) : tlook (tdel t k) k = none := by
  induction t with
  | nil => rfl
  | cons e r ih =>
    obtain ⟨j, w⟩ := e
    by_cases h : j = k
    · subst h; simpa [tdel, tlook] using ih
    · simpa [tdel, tlook, h] using ih

theorem tlook_tdel_other (t : Tbl α) (k i : Nat) (h : i ≠ k) : tlook (tdel t k) i = tlook t i := by
  induction t with
  | nil => rfl
  | cons e r ih =>
    obtain ⟨j, w⟩ := e
    by_cases h1 : j = k
    · subst h1; simpa [tdel, tlook, Ne.symm h] using ih
    · by_cases h2 : j = i
      · subst h2; simp [tdel, tlook, h1]
      · simpa [tdel, tlook, h1, h2] using ih

@[simp] theorem tget_tput_self [DecidableEq α] (t : Tbl α) (d : α) (k : Nat) (v : α) : tget (tput t d k v) d k = v := by
  by_cases h : v = d
  · simp [tput, h, tget]
  · simp [tput, h, tget]

theorem tget_tput_other [DecidableEq α] (t : Tbl α) (d e : α) (k i : Nat) (v : α) (h : i ≠ k) :
    tget (tput t d k v) e i = tget t e i := by
  by_cases hv : v = d
  · simp [tput, hv, tget, tlook_tdel_other t k i h]
  · simp [tput, hv, tget, tlook_tins_other t k i v h]

/-! ### Canonical form -/

theorem mem_tins (t : Tbl α) (k : Nat) (v : α) (e : Nat × α) (h : e ∈ tins t k v) : e = (k, v) ∨ e ∈ t := by
  induction t with
  | nil => simpa [tins] using h
  | cons f r ih =>
    obtain ⟨j, w⟩ := f
    by_cases h1 : k < j
    · simpa [tins, h1] using h
    · by_cases h2 : k = j
      · simp only [tins, h1, h2, if_true, lt_irrefl, if_false, List.mem_cons] at h
        rcases h with h | h
        · exact .inl (by rw [h, h2])
        · exact .inr (List.mem_cons_of_mem _ h)
      · simp only [tins, h1, h2, if_false, List.mem_cons] at h
        rcases h with h | h
        · exact .inr (by rw [h]; exact List.mem_cons_self)
        · rcases ih h with h | h
          · exact .inl h
          · exact .inr (List.mem_cons_of_mem _ h)

theorem tsorted_tins (t : Tbl α) (k : Nat) (v : α) (h : TSorted t) : TSorted (tins t k v) := by
  induction t with
  | nil => simp [tins]
  | cons f r ih =>
    obtain ⟨j, w⟩ := f
    rw [TSorted, List.pairwise_cons] at h
    by_cases h1 : k < j
    · simp only [tins, h1, if_true]
      rw [TSorted, List.pairwise_cons, List.pairwise_cons]
      refine ⟨fun e he => ?_, h⟩
      rcases List.mem_cons.mp he with he | he
      · rw [he]; exact h1
      · exact lt_trans h1 (h.1 e he)
    · by_cases h2 : k = j
      · subst h2
        simp only [tins, lt_irrefl, if_true, if_false]
        rw [TSorted, List.pairwise_cons]
        exact h
      · simp only [tins, h1, h2, if_false]
        rw [TSorted, List.pairwise_cons]
        refine ⟨fun e he => ?_, ih h.2⟩
        rcases mem_tins r k v e he with he | he
        · rw [he]; dsimp only; omega
        · exact h.1 e he

theorem tsorted_filter (t : Tbl α) (p : Nat × α → Bool) (h : TSorted t) : TSorted (t.filter p) :=
  List.Pairwise.filter p h

theorem tsorted_tput [DecidableEq α] (t : Tbl α) (d : α) (k : Nat) (v : α) (h : TSorted t) : TSorted (tput t d k v) := by
  unfold tput
  split
  · exact tsorted_filter t _ h
  · exact tsorted_tins t k v h

end Sys2Proof
end

