-- ==== Sys2Proof/Laws/Memory.lean ====
section
/-!
SUPPORT. Memory: a byte reads back what was written and no write touches another byte; every operation keeps the canonical
form, and reset has it.
-/
namespace Sys2Proof.Machine

theorem wrKey_frame (b : Block) (k : Nat) (x : Byte) : { wrKey b k x with mem := b.mem } = b := by
  unfold wrKey; split <;> rfl

@[simp] theorem wrKey_stale (b : Block) (k : Nat) (x : Byte) : (wrKey b k x).stale = b.stale := by
  unfold wrKey; split <;> rfl

/-- A write of one byte: that byte reads as written. -/
@[simp] theorem rdKey_wrKey_self (b : Block) (k : Nat) (x : Byte) : rdKey (wrKey b k x) k = x := by
  unfold wrKey
  split
  · simp [rdKey]
  · rename_i h
    unfold tput
    split
    · rename_i hx
      simp [rdKey, hx, unlisted, h]
    · simp [rdKey]

/-- Every other byte reads as before. -/
theorem rdKey_wrKey_other (b : Block) (k j : Nat) (x : Byte) (h : j ≠ k) : rdKey (wrKey b k x) j = rdKey b j := by
  unfold wrKey
  split
  · simp [rdKey, unlisted, tlook_tins_other _ _ _ _ h]
  · unfold tput
    split
    · simp [rdKey, unlisted, tlook_tdel_other _ _ _ h]
    · simp [rdKey, unlisted, tlook_tins_other _ _ _ _ h]

/-- What a write of a list of bytes leaves at a key. -/
theorem rdKey_wrList (b : Block) (k j : Nat) (l : List Byte) :
    rdKey (wrList b k l) j = if k ≤ j ∧ j < k + l.length then l.getD (j - k) 0 else rdKey b j := by
  induction l generalizing b k with
  | nil => simp [wrList]
  | cons x r ih =>
    rw [wrList, ih]
    by_cases h : j = k
    · subst h
      rw [if_neg (by omega), if_pos (by simp)]
      simp
    · rw [rdKey_wrKey_other b k j x h]
      by_cases h1 : k + 1 ≤ j ∧ j < k + 1 + r.length
      · rw [if_pos h1, if_pos (by simp only [List.length_cons]; omega)]
        rw [show j - k = (j - (k + 1)) + 1 by omega, List.getD_cons_succ]
      · rw [if_neg h1, if_neg (by simp only [List.length_cons]; omega)]

/-! ### Canonical form -/

theorem Memory.wf_wrKey (b : Block) (k : Nat) (x : Byte) (h : Memory.wf b) : Memory.wf (wrKey b k x) := by
  obtain ⟨h1, h2⟩ := h
  unfold wrKey
  split
  · rename_i n hn
    refine ⟨tsorted_tins _ _ _ h1, fun e he h0 => ?_⟩
    rcases mem_tins _ _ _ _ he with he | he
    · subst he; simp [hn]
    · exact h2 e he h0
  · rename_i hn
    refine ⟨tsorted_tput _ _ _ _ h1, fun e he h0 => ?_⟩
    unfold tput at he
    split at he
    · exact h2 e (List.mem_of_mem_filter he) h0
    · rename_i hx
      rcases mem_tins _ _ _ _ he with he | he
      · subst he; exact absurd h0 hx
      · exact h2 e he h0

theorem Memory.wf_dropErr (b : Block) (k n : Nat) (h : Memory.wf b) : Memory.wf (dropErr b k n) := h

theorem Memory.wf_wrList (b : Block) (k : Nat) (l : List Byte) (h : Memory.wf b) : Memory.wf (wrList b k l) := by
  induction l generalizing b k with
  | nil => exact h
  | cons x r ih => exact ih _ _ (Memory.wf_wrKey b k x h)

/-- A wake changes no byte. -/
@[simp] theorem sendWakes_mem (b : Block) (k n : Nat) : (sendWakes b k n).mem = b.mem := by unfold sendWakes; split <;> rfl

@[simp] theorem sendWakes_stale (b : Block) (k n : Nat) : (sendWakes b k n).stale = b.stale := by
  unfold sendWakes; split <;> rfl

theorem Memory.wf_sendWakes (b : Block) (k n : Nat) (h : Memory.wf b) : Memory.wf (sendWakes b k n) := by
  simpa [Memory.wf] using h

theorem Memory.wf_wrKeys (b : Block) (k : Nat) (l : List Byte) (h : Memory.wf b) : Memory.wf (wrKeys b k l) :=
  Memory.wf_sendWakes _ _ _ (Memory.wf_wrList _ k l (Memory.wf_dropErr b k l.length h))

theorem Memory.wf_dropBytes (b : Block) (p : Nat → Bool) (h : Memory.wf b) : Memory.wf (dropBytes b p) :=
  ⟨tsorted_filter _ _ h.1, fun e he h0 => h.2 e (List.mem_of_mem_filter he) h0⟩

/-- Leaving freed pages undefined keeps the form: more pages may then list zeros. -/
theorem Memory.wf_stale (b : Block) (p n : Nat) (h : Memory.wf b) : Memory.wf { b with stale := tins b.stale p n } := by
  refine ⟨h.1, fun e he h0 => ?_⟩
  by_cases hp : pageOf e.1 = p
  · simp [hp]
  · simpa [tlook_tins_other _ _ _ _ hp] using h.2 e he h0

/-- A module that loses its power has nothing listed. -/
theorem Memory.wf_powerOff (b : Block) (stop : BitVec 4) : Memory.wf (powerOff b stop) :=
  ⟨List.Pairwise.nil, fun _ he => nomatch he⟩

theorem tlook_filter_key (t : Tbl Nat) (p : Nat → Bool) (k : Nat) (h : p k = true) :
    tlook (t.filter fun e => p e.1) k = tlook t k := by
  induction t with
  | nil => rfl
  | cons e r ih =>
    obtain ⟨j, w⟩ := e
    by_cases hj : p j = true
    · simp [hj, tlook, ih]
    · have : j ≠ k := fun e => hj (e ▸ h)
      simp [hj, tlook, this, ih]

theorem isSome_foldl_tins (l : List Nat) (t : Tbl Nat) (n k : Nat) (h : (tlook t k).isSome = true) :
    (tlook (l.foldl (fun t p => tins t p n) t) k).isSome = true := by
  induction l generalizing t with
  | nil => exact h
  | cons p r ih =>
    apply ih
    by_cases hp : k = p
    · simp [hp]
    · rw [tlook_tins_other _ _ _ _ hp]; exact h

/-- A module reset that retains memory keeps the listed bytes of the retained pages, and which of them are undefined. -/
theorem Memory.wf_resetBlock (b : Block) (retain : Bool) (h : Memory.wf b) : Memory.wf (resetBlock b retain) := by
  cases retain with
  | false => exact ⟨List.Pairwise.nil, fun _ he => nomatch he⟩
  | true =>
    refine ⟨tsorted_filter _ _ h.1, fun e he h0 => ?_⟩
    obtain ⟨hm, hk⟩ := List.mem_filter.mp he
    apply isSome_foldl_tins
    have hp : pageOf (pageOf e.1 * pageBytes) = pageOf e.1 := by unfold pageOf pageBytes; omega
    have hk' : keptByte b (pageOf e.1 * pageBytes) = true := by
      unfold keptByte at hk ⊢
      rw [hp]
      simp only [Bool.and_eq_true, decide_eq_true_eq] at hk ⊢
      exact ⟨lt_of_le_of_lt (by unfold pageOf pageBytes; omega) hk.1, hk.2⟩
    rw [tlook_filter_key b.stale (fun q => keptByte b (q * pageBytes)) _ hk']
    exact h.2 e hm h0

theorem Memory.wf_reset : Memory.wf State.reset.blk := ⟨List.Pairwise.nil, fun _ he => nomatch he⟩

end Sys2Proof.Machine
end

