-- ==== Sys2Proof/Laws/State.lean ====
section
/-!
SUPPORT. What each update of one part of the block leaves: one lemma per field, and what reads back.
-/
namespace Sys2Proof.Machine

variable (b : Block)

/-! ### setImg -/

@[simp] theorem setImg_geo (c : Nat) (u : UnitId) (i : UnitImg) : (setImg b c u i).geo = b.geo := rfl
@[simp] theorem setImg_ctxs (c : Nat) (u : UnitId) (i : UnitImg) : (setImg b c u i).ctxs = b.ctxs := rfl
@[simp] theorem setImg_running (c : Nat) (u : UnitId) (i : UnitImg) : (setImg b c u i).running = b.running := rfl
@[simp] theorem setImg_tiles (c : Nat) (u : UnitId) (i : UnitImg) : (setImg b c u i).tiles = b.tiles := rfl
@[simp] theorem setImg_mem (c : Nat) (u : UnitId) (i : UnitImg) : (setImg b c u i).mem = b.mem := rfl
@[simp] theorem setImg_stale (c : Nat) (u : UnitId) (i : UnitImg) : (setImg b c u i).stale = b.stale := rfl
@[simp] theorem setImg_memErr (c : Nat) (u : UnitId) (i : UnitImg) : (setImg b c u i).memErr = b.memErr := rfl
@[simp] theorem setImg_pages (c : Nat) (u : UnitId) (i : UnitImg) : (setImg b c u i).pages = b.pages := rfl
@[simp] theorem setImg_mcs (c : Nat) (u : UnitId) (i : UnitImg) : (setImg b c u i).mcs = b.mcs := rfl
@[simp] theorem setImg_ct (c : Nat) (u : UnitId) (i : UnitImg) : (setImg b c u i).ct = b.ct := rfl
@[simp] theorem setImg_fab (c : Nat) (u : UnitId) (i : UnitImg) : (setImg b c u i).fab = b.fab := rfl
@[simp] theorem setImg_sessions (c : Nat) (u : UnitId) (i : UnitImg) : (setImg b c u i).sessions = b.sessions := rfl
@[simp] theorem setImg_eventNo (c : Nat) (u : UnitId) (i : UnitImg) : (setImg b c u i).eventNo = b.eventNo := rfl
@[simp] theorem setImg_blks (c : Nat) (u : UnitId) (i : UnitImg) : (setImg b c u i).blks = b.blks := rfl
@[simp] theorem setImg_latches (c : Nat) (u : UnitId) (i : UnitImg) : (setImg b c u i).latches = b.latches := rfl
@[simp] theorem setImg_chipEvent (c : Nat) (u : UnitId) (i : UnitImg) : (setImg b c u i).chipEvent = b.chipEvent := rfl
@[simp] theorem setImg_wakes (c : Nat) (u : UnitId) (i : UnitImg) : (setImg b c u i).wakes = b.wakes := rfl
@[simp] theorem setImg_draining (c : Nat) (u : UnitId) (i : UnitImg) : (setImg b c u i).draining = b.draining := rfl
@[simp] theorem setImg_regionFault (c : Nat) (u : UnitId) (i : UnitImg) : (setImg b c u i).regionFault = b.regionFault := rfl
@[simp] theorem setImg_drks (c : Nat) (u : UnitId) (i : UnitImg) : (setImg b c u i).drks = b.drks := rfl
@[simp] theorem setImg_rcks (c : Nat) (u : UnitId) (i : UnitImg) : (setImg b c u i).rcks = b.rcks := rfl
@[simp] theorem setImg_links (c : Nat) (u : UnitId) (i : UnitImg) : (setImg b c u i).links = b.links := rfl
@[simp] theorem setImg_torus (c : Nat) (u : UnitId) (i : UnitImg) : (setImg b c u i).torus = b.torus := rfl
@[simp] theorem setImg_house (c : Nat) (u : UnitId) (i : UnitImg) : (setImg b c u i).house = b.house := rfl
@[simp] theorem setImg_hp (c : Nat) (u : UnitId) (i : UnitImg) : (setImg b c u i).hp = b.hp := rfl
@[simp] theorem setImg_vy (c : Nat) (u : UnitId) (i : UnitImg) : (setImg b c u i).vy = b.vy := rfl
@[simp] theorem setImg_pw (c : Nat) (u : UnitId) (i : UnitImg) : (setImg b c u i).pw = b.pw := rfl
@[simp] theorem setImg_ft (c : Nat) (u : UnitId) (i : UnitImg) : (setImg b c u i).ft = b.ft := rfl
@[simp] theorem setImg_chip (c : Nat) (u : UnitId) (i : UnitImg) : (setImg b c u i).chip = b.chip := rfl
@[simp] theorem setImg_lastRan (c : Nat) (u : UnitId) (i : UnitImg) : (setImg b c u i).lastRan = b.lastRan := rfl
@[simp] theorem setImg_opNext (c : Nat) (u : UnitId) (i : UnitImg) : (setImg b c u i).opNext = b.opNext := rfl
@[simp] theorem setImg_freeCtr (c : Nat) (u : UnitId) (i : UnitImg) : (setImg b c u i).freeCtr = b.freeCtr := rfl
@[simp] theorem setImg_egress (c : Nat) (u : UnitId) (i : UnitImg) : (setImg b c u i).egress = b.egress := rfl

/-! ### setTileHw -/

@[simp] theorem setTileHw_geo (t : Nat) (h : TileHw) : (setTileHw b t h).geo = b.geo := rfl
@[simp] theorem setTileHw_ctxs (t : Nat) (h : TileHw) : (setTileHw b t h).ctxs = b.ctxs := rfl
@[simp] theorem setTileHw_running (t : Nat) (h : TileHw) : (setTileHw b t h).running = b.running := rfl
@[simp] theorem setTileHw_units (t : Nat) (h : TileHw) : (setTileHw b t h).units = b.units := rfl
@[simp] theorem setTileHw_mem (t : Nat) (h : TileHw) : (setTileHw b t h).mem = b.mem := rfl
@[simp] theorem setTileHw_stale (t : Nat) (h : TileHw) : (setTileHw b t h).stale = b.stale := rfl
@[simp] theorem setTileHw_memErr (t : Nat) (h : TileHw) : (setTileHw b t h).memErr = b.memErr := rfl
@[simp] theorem setTileHw_pages (t : Nat) (h : TileHw) : (setTileHw b t h).pages = b.pages := rfl
@[simp] theorem setTileHw_mcs (t : Nat) (h : TileHw) : (setTileHw b t h).mcs = b.mcs := rfl
@[simp] theorem setTileHw_ct (t : Nat) (h : TileHw) : (setTileHw b t h).ct = b.ct := rfl
@[simp] theorem setTileHw_fab (t : Nat) (h : TileHw) : (setTileHw b t h).fab = b.fab := rfl
@[simp] theorem setTileHw_sessions (t : Nat) (h : TileHw) : (setTileHw b t h).sessions = b.sessions := rfl
@[simp] theorem setTileHw_eventNo (t : Nat) (h : TileHw) : (setTileHw b t h).eventNo = b.eventNo := rfl
@[simp] theorem setTileHw_blks (t : Nat) (h : TileHw) : (setTileHw b t h).blks = b.blks := rfl
@[simp] theorem setTileHw_latches (t : Nat) (h : TileHw) : (setTileHw b t h).latches = b.latches := rfl
@[simp] theorem setTileHw_chipEvent (t : Nat) (h : TileHw) : (setTileHw b t h).chipEvent = b.chipEvent := rfl
@[simp] theorem setTileHw_wakes (t : Nat) (h : TileHw) : (setTileHw b t h).wakes = b.wakes := rfl
@[simp] theorem setTileHw_draining (t : Nat) (h : TileHw) : (setTileHw b t h).draining = b.draining := rfl
@[simp] theorem setTileHw_regionFault (t : Nat) (h : TileHw) : (setTileHw b t h).regionFault = b.regionFault := rfl
@[simp] theorem setTileHw_drks (t : Nat) (h : TileHw) : (setTileHw b t h).drks = b.drks := rfl
@[simp] theorem setTileHw_rcks (t : Nat) (h : TileHw) : (setTileHw b t h).rcks = b.rcks := rfl
@[simp] theorem setTileHw_links (t : Nat) (h : TileHw) : (setTileHw b t h).links = b.links := rfl
@[simp] theorem setTileHw_torus (t : Nat) (h : TileHw) : (setTileHw b t h).torus = b.torus := rfl
@[simp] theorem setTileHw_house (t : Nat) (h : TileHw) : (setTileHw b t h).house = b.house := rfl
@[simp] theorem setTileHw_hp (t : Nat) (h : TileHw) : (setTileHw b t h).hp = b.hp := rfl
@[simp] theorem setTileHw_vy (t : Nat) (h : TileHw) : (setTileHw b t h).vy = b.vy := rfl
@[simp] theorem setTileHw_pw (t : Nat) (h : TileHw) : (setTileHw b t h).pw = b.pw := rfl
@[simp] theorem setTileHw_ft (t : Nat) (h : TileHw) : (setTileHw b t h).ft = b.ft := rfl
@[simp] theorem setTileHw_chip (t : Nat) (h : TileHw) : (setTileHw b t h).chip = b.chip := rfl
@[simp] theorem setTileHw_lastRan (t : Nat) (h : TileHw) : (setTileHw b t h).lastRan = b.lastRan := rfl
@[simp] theorem setTileHw_opNext (t : Nat) (h : TileHw) : (setTileHw b t h).opNext = b.opNext := rfl
@[simp] theorem setTileHw_freeCtr (t : Nat) (h : TileHw) : (setTileHw b t h).freeCtr = b.freeCtr := rfl
@[simp] theorem setTileHw_egress (t : Nat) (h : TileHw) : (setTileHw b t h).egress = b.egress := rfl

/-! ### setMc -/

@[simp] theorem setMc_geo (k : Nat) (m : Mc) : (setMc b k m).geo = b.geo := rfl
@[simp] theorem setMc_ctxs (k : Nat) (m : Mc) : (setMc b k m).ctxs = b.ctxs := rfl
@[simp] theorem setMc_running (k : Nat) (m : Mc) : (setMc b k m).running = b.running := rfl
@[simp] theorem setMc_units (k : Nat) (m : Mc) : (setMc b k m).units = b.units := rfl
@[simp] theorem setMc_tiles (k : Nat) (m : Mc) : (setMc b k m).tiles = b.tiles := rfl
@[simp] theorem setMc_mem (k : Nat) (m : Mc) : (setMc b k m).mem = b.mem := rfl
@[simp] theorem setMc_stale (k : Nat) (m : Mc) : (setMc b k m).stale = b.stale := rfl
@[simp] theorem setMc_memErr (k : Nat) (m : Mc) : (setMc b k m).memErr = b.memErr := rfl
@[simp] theorem setMc_pages (k : Nat) (m : Mc) : (setMc b k m).pages = b.pages := rfl
@[simp] theorem setMc_ct (k : Nat) (m : Mc) : (setMc b k m).ct = b.ct := rfl
@[simp] theorem setMc_fab (k : Nat) (m : Mc) : (setMc b k m).fab = b.fab := rfl
@[simp] theorem setMc_sessions (k : Nat) (m : Mc) : (setMc b k m).sessions = b.sessions := rfl
@[simp] theorem setMc_eventNo (k : Nat) (m : Mc) : (setMc b k m).eventNo = b.eventNo := rfl
@[simp] theorem setMc_blks (k : Nat) (m : Mc) : (setMc b k m).blks = b.blks := rfl
@[simp] theorem setMc_latches (k : Nat) (m : Mc) : (setMc b k m).latches = b.latches := rfl
@[simp] theorem setMc_chipEvent (k : Nat) (m : Mc) : (setMc b k m).chipEvent = b.chipEvent := rfl
@[simp] theorem setMc_wakes (k : Nat) (m : Mc) : (setMc b k m).wakes = b.wakes := rfl
@[simp] theorem setMc_draining (k : Nat) (m : Mc) : (setMc b k m).draining = b.draining := rfl
@[simp] theorem setMc_regionFault (k : Nat) (m : Mc) : (setMc b k m).regionFault = b.regionFault := rfl
@[simp] theorem setMc_drks (k : Nat) (m : Mc) : (setMc b k m).drks = b.drks := rfl
@[simp] theorem setMc_rcks (k : Nat) (m : Mc) : (setMc b k m).rcks = b.rcks := rfl
@[simp] theorem setMc_links (k : Nat) (m : Mc) : (setMc b k m).links = b.links := rfl
@[simp] theorem setMc_torus (k : Nat) (m : Mc) : (setMc b k m).torus = b.torus := rfl
@[simp] theorem setMc_house (k : Nat) (m : Mc) : (setMc b k m).house = b.house := rfl
@[simp] theorem setMc_hp (k : Nat) (m : Mc) : (setMc b k m).hp = b.hp := rfl
@[simp] theorem setMc_vy (k : Nat) (m : Mc) : (setMc b k m).vy = b.vy := rfl
@[simp] theorem setMc_pw (k : Nat) (m : Mc) : (setMc b k m).pw = b.pw := rfl
@[simp] theorem setMc_ft (k : Nat) (m : Mc) : (setMc b k m).ft = b.ft := rfl
@[simp] theorem setMc_chip (k : Nat) (m : Mc) : (setMc b k m).chip = b.chip := rfl
@[simp] theorem setMc_lastRan (k : Nat) (m : Mc) : (setMc b k m).lastRan = b.lastRan := rfl
@[simp] theorem setMc_opNext (k : Nat) (m : Mc) : (setMc b k m).opNext = b.opNext := rfl
@[simp] theorem setMc_freeCtr (k : Nat) (m : Mc) : (setMc b k m).freeCtr = b.freeCtr := rfl
@[simp] theorem setMc_egress (k : Nat) (m : Mc) : (setMc b k m).egress = b.egress := rfl

/-! ### setCtx -/

@[simp] theorem setCtx_geo (c : Nat) (x : Ctx) : (setCtx b c x).geo = b.geo := rfl
@[simp] theorem setCtx_running (c : Nat) (x : Ctx) : (setCtx b c x).running = b.running := rfl
@[simp] theorem setCtx_units (c : Nat) (x : Ctx) : (setCtx b c x).units = b.units := rfl
@[simp] theorem setCtx_tiles (c : Nat) (x : Ctx) : (setCtx b c x).tiles = b.tiles := rfl
@[simp] theorem setCtx_mem (c : Nat) (x : Ctx) : (setCtx b c x).mem = b.mem := rfl
@[simp] theorem setCtx_stale (c : Nat) (x : Ctx) : (setCtx b c x).stale = b.stale := rfl
@[simp] theorem setCtx_memErr (c : Nat) (x : Ctx) : (setCtx b c x).memErr = b.memErr := rfl
@[simp] theorem setCtx_pages (c : Nat) (x : Ctx) : (setCtx b c x).pages = b.pages := rfl
@[simp] theorem setCtx_mcs (c : Nat) (x : Ctx) : (setCtx b c x).mcs = b.mcs := rfl
@[simp] theorem setCtx_ct (c : Nat) (x : Ctx) : (setCtx b c x).ct = b.ct := rfl
@[simp] theorem setCtx_fab (c : Nat) (x : Ctx) : (setCtx b c x).fab = b.fab := rfl
@[simp] theorem setCtx_sessions (c : Nat) (x : Ctx) : (setCtx b c x).sessions = b.sessions := rfl
@[simp] theorem setCtx_eventNo (c : Nat) (x : Ctx) : (setCtx b c x).eventNo = b.eventNo := rfl
@[simp] theorem setCtx_blks (c : Nat) (x : Ctx) : (setCtx b c x).blks = b.blks := rfl
@[simp] theorem setCtx_latches (c : Nat) (x : Ctx) : (setCtx b c x).latches = b.latches := rfl
@[simp] theorem setCtx_chipEvent (c : Nat) (x : Ctx) : (setCtx b c x).chipEvent = b.chipEvent := rfl
@[simp] theorem setCtx_wakes (c : Nat) (x : Ctx) : (setCtx b c x).wakes = b.wakes := rfl
@[simp] theorem setCtx_draining (c : Nat) (x : Ctx) : (setCtx b c x).draining = b.draining := rfl
@[simp] theorem setCtx_regionFault (c : Nat) (x : Ctx) : (setCtx b c x).regionFault = b.regionFault := rfl
@[simp] theorem setCtx_drks (c : Nat) (x : Ctx) : (setCtx b c x).drks = b.drks := rfl
@[simp] theorem setCtx_rcks (c : Nat) (x : Ctx) : (setCtx b c x).rcks = b.rcks := rfl
@[simp] theorem setCtx_links (c : Nat) (x : Ctx) : (setCtx b c x).links = b.links := rfl
@[simp] theorem setCtx_torus (c : Nat) (x : Ctx) : (setCtx b c x).torus = b.torus := rfl
@[simp] theorem setCtx_house (c : Nat) (x : Ctx) : (setCtx b c x).house = b.house := rfl
@[simp] theorem setCtx_hp (c : Nat) (x : Ctx) : (setCtx b c x).hp = b.hp := rfl
@[simp] theorem setCtx_vy (c : Nat) (x : Ctx) : (setCtx b c x).vy = b.vy := rfl
@[simp] theorem setCtx_pw (c : Nat) (x : Ctx) : (setCtx b c x).pw = b.pw := rfl
@[simp] theorem setCtx_ft (c : Nat) (x : Ctx) : (setCtx b c x).ft = b.ft := rfl
@[simp] theorem setCtx_chip (c : Nat) (x : Ctx) : (setCtx b c x).chip = b.chip := rfl
@[simp] theorem setCtx_lastRan (c : Nat) (x : Ctx) : (setCtx b c x).lastRan = b.lastRan := rfl
@[simp] theorem setCtx_opNext (c : Nat) (x : Ctx) : (setCtx b c x).opNext = b.opNext := rfl
@[simp] theorem setCtx_freeCtr (c : Nat) (x : Ctx) : (setCtx b c x).freeCtr = b.freeCtr := rfl
@[simp] theorem setCtx_egress (c : Nat) (x : Ctx) : (setCtx b c x).egress = b.egress := rfl

/-! ### setDrk -/

@[simp] theorem setDrk_geo (k : Nat) (x : Drk) : (setDrk b k x).geo = b.geo := rfl
@[simp] theorem setDrk_ctxs (k : Nat) (x : Drk) : (setDrk b k x).ctxs = b.ctxs := rfl
@[simp] theorem setDrk_running (k : Nat) (x : Drk) : (setDrk b k x).running = b.running := rfl
@[simp] theorem setDrk_units (k : Nat) (x : Drk) : (setDrk b k x).units = b.units := rfl
@[simp] theorem setDrk_tiles (k : Nat) (x : Drk) : (setDrk b k x).tiles = b.tiles := rfl
@[simp] theorem setDrk_mem (k : Nat) (x : Drk) : (setDrk b k x).mem = b.mem := rfl
@[simp] theorem setDrk_stale (k : Nat) (x : Drk) : (setDrk b k x).stale = b.stale := rfl
@[simp] theorem setDrk_memErr (k : Nat) (x : Drk) : (setDrk b k x).memErr = b.memErr := rfl
@[simp] theorem setDrk_pages (k : Nat) (x : Drk) : (setDrk b k x).pages = b.pages := rfl
@[simp] theorem setDrk_mcs (k : Nat) (x : Drk) : (setDrk b k x).mcs = b.mcs := rfl
@[simp] theorem setDrk_ct (k : Nat) (x : Drk) : (setDrk b k x).ct = b.ct := rfl
@[simp] theorem setDrk_fab (k : Nat) (x : Drk) : (setDrk b k x).fab = b.fab := rfl
@[simp] theorem setDrk_sessions (k : Nat) (x : Drk) : (setDrk b k x).sessions = b.sessions := rfl
@[simp] theorem setDrk_eventNo (k : Nat) (x : Drk) : (setDrk b k x).eventNo = b.eventNo := rfl
@[simp] theorem setDrk_blks (k : Nat) (x : Drk) : (setDrk b k x).blks = b.blks := rfl
@[simp] theorem setDrk_latches (k : Nat) (x : Drk) : (setDrk b k x).latches = b.latches := rfl
@[simp] theorem setDrk_chipEvent (k : Nat) (x : Drk) : (setDrk b k x).chipEvent = b.chipEvent := rfl
@[simp] theorem setDrk_wakes (k : Nat) (x : Drk) : (setDrk b k x).wakes = b.wakes := rfl
@[simp] theorem setDrk_draining (k : Nat) (x : Drk) : (setDrk b k x).draining = b.draining := rfl
@[simp] theorem setDrk_regionFault (k : Nat) (x : Drk) : (setDrk b k x).regionFault = b.regionFault := rfl
@[simp] theorem setDrk_rcks (k : Nat) (x : Drk) : (setDrk b k x).rcks = b.rcks := rfl
@[simp] theorem setDrk_links (k : Nat) (x : Drk) : (setDrk b k x).links = b.links := rfl
@[simp] theorem setDrk_torus (k : Nat) (x : Drk) : (setDrk b k x).torus = b.torus := rfl
@[simp] theorem setDrk_house (k : Nat) (x : Drk) : (setDrk b k x).house = b.house := rfl
@[simp] theorem setDrk_hp (k : Nat) (x : Drk) : (setDrk b k x).hp = b.hp := rfl
@[simp] theorem setDrk_vy (k : Nat) (x : Drk) : (setDrk b k x).vy = b.vy := rfl
@[simp] theorem setDrk_pw (k : Nat) (x : Drk) : (setDrk b k x).pw = b.pw := rfl
@[simp] theorem setDrk_ft (k : Nat) (x : Drk) : (setDrk b k x).ft = b.ft := rfl
@[simp] theorem setDrk_chip (k : Nat) (x : Drk) : (setDrk b k x).chip = b.chip := rfl
@[simp] theorem setDrk_lastRan (k : Nat) (x : Drk) : (setDrk b k x).lastRan = b.lastRan := rfl
@[simp] theorem setDrk_opNext (k : Nat) (x : Drk) : (setDrk b k x).opNext = b.opNext := rfl
@[simp] theorem setDrk_freeCtr (k : Nat) (x : Drk) : (setDrk b k x).freeCtr = b.freeCtr := rfl
@[simp] theorem setDrk_egress (k : Nat) (x : Drk) : (setDrk b k x).egress = b.egress := rfl

/-! ### setRck -/

@[simp] theorem setRck_geo (k : Nat) (x : Rck) : (setRck b k x).geo = b.geo := rfl
@[simp] theorem setRck_ctxs (k : Nat) (x : Rck) : (setRck b k x).ctxs = b.ctxs := rfl
@[simp] theorem setRck_running (k : Nat) (x : Rck) : (setRck b k x).running = b.running := rfl
@[simp] theorem setRck_units (k : Nat) (x : Rck) : (setRck b k x).units = b.units := rfl
@[simp] theorem setRck_tiles (k : Nat) (x : Rck) : (setRck b k x).tiles = b.tiles := rfl
@[simp] theorem setRck_mem (k : Nat) (x : Rck) : (setRck b k x).mem = b.mem := rfl
@[simp] theorem setRck_stale (k : Nat) (x : Rck) : (setRck b k x).stale = b.stale := rfl
@[simp] theorem setRck_memErr (k : Nat) (x : Rck) : (setRck b k x).memErr = b.memErr := rfl
@[simp] theorem setRck_pages (k : Nat) (x : Rck) : (setRck b k x).pages = b.pages := rfl
@[simp] theorem setRck_mcs (k : Nat) (x : Rck) : (setRck b k x).mcs = b.mcs := rfl
@[simp] theorem setRck_ct (k : Nat) (x : Rck) : (setRck b k x).ct = b.ct := rfl
@[simp] theorem setRck_fab (k : Nat) (x : Rck) : (setRck b k x).fab = b.fab := rfl
@[simp] theorem setRck_sessions (k : Nat) (x : Rck) : (setRck b k x).sessions = b.sessions := rfl
@[simp] theorem setRck_eventNo (k : Nat) (x : Rck) : (setRck b k x).eventNo = b.eventNo := rfl
@[simp] theorem setRck_blks (k : Nat) (x : Rck) : (setRck b k x).blks = b.blks := rfl
@[simp] theorem setRck_latches (k : Nat) (x : Rck) : (setRck b k x).latches = b.latches := rfl
@[simp] theorem setRck_chipEvent (k : Nat) (x : Rck) : (setRck b k x).chipEvent = b.chipEvent := rfl
@[simp] theorem setRck_wakes (k : Nat) (x : Rck) : (setRck b k x).wakes = b.wakes := rfl
@[simp] theorem setRck_draining (k : Nat) (x : Rck) : (setRck b k x).draining = b.draining := rfl
@[simp] theorem setRck_regionFault (k : Nat) (x : Rck) : (setRck b k x).regionFault = b.regionFault := rfl
@[simp] theorem setRck_drks (k : Nat) (x : Rck) : (setRck b k x).drks = b.drks := rfl
@[simp] theorem setRck_links (k : Nat) (x : Rck) : (setRck b k x).links = b.links := rfl
@[simp] theorem setRck_torus (k : Nat) (x : Rck) : (setRck b k x).torus = b.torus := rfl
@[simp] theorem setRck_house (k : Nat) (x : Rck) : (setRck b k x).house = b.house := rfl
@[simp] theorem setRck_hp (k : Nat) (x : Rck) : (setRck b k x).hp = b.hp := rfl
@[simp] theorem setRck_vy (k : Nat) (x : Rck) : (setRck b k x).vy = b.vy := rfl
@[simp] theorem setRck_pw (k : Nat) (x : Rck) : (setRck b k x).pw = b.pw := rfl
@[simp] theorem setRck_ft (k : Nat) (x : Rck) : (setRck b k x).ft = b.ft := rfl
@[simp] theorem setRck_chip (k : Nat) (x : Rck) : (setRck b k x).chip = b.chip := rfl
@[simp] theorem setRck_lastRan (k : Nat) (x : Rck) : (setRck b k x).lastRan = b.lastRan := rfl
@[simp] theorem setRck_opNext (k : Nat) (x : Rck) : (setRck b k x).opNext = b.opNext := rfl
@[simp] theorem setRck_freeCtr (k : Nat) (x : Rck) : (setRck b k x).freeCtr = b.freeCtr := rfl
@[simp] theorem setRck_egress (k : Nat) (x : Rck) : (setRck b k x).egress = b.egress := rfl

/-! ### setLink -/

@[simp] theorem setLink_geo (k : Nat) (x : Link) : (setLink b k x).geo = b.geo := rfl
@[simp] theorem setLink_ctxs (k : Nat) (x : Link) : (setLink b k x).ctxs = b.ctxs := rfl
@[simp] theorem setLink_running (k : Nat) (x : Link) : (setLink b k x).running = b.running := rfl
@[simp] theorem setLink_units (k : Nat) (x : Link) : (setLink b k x).units = b.units := rfl
@[simp] theorem setLink_tiles (k : Nat) (x : Link) : (setLink b k x).tiles = b.tiles := rfl
@[simp] theorem setLink_mem (k : Nat) (x : Link) : (setLink b k x).mem = b.mem := rfl
@[simp] theorem setLink_stale (k : Nat) (x : Link) : (setLink b k x).stale = b.stale := rfl
@[simp] theorem setLink_memErr (k : Nat) (x : Link) : (setLink b k x).memErr = b.memErr := rfl
@[simp] theorem setLink_pages (k : Nat) (x : Link) : (setLink b k x).pages = b.pages := rfl
@[simp] theorem setLink_mcs (k : Nat) (x : Link) : (setLink b k x).mcs = b.mcs := rfl
@[simp] theorem setLink_ct (k : Nat) (x : Link) : (setLink b k x).ct = b.ct := rfl
@[simp] theorem setLink_fab (k : Nat) (x : Link) : (setLink b k x).fab = b.fab := rfl
@[simp] theorem setLink_sessions (k : Nat) (x : Link) : (setLink b k x).sessions = b.sessions := rfl
@[simp] theorem setLink_eventNo (k : Nat) (x : Link) : (setLink b k x).eventNo = b.eventNo := rfl
@[simp] theorem setLink_blks (k : Nat) (x : Link) : (setLink b k x).blks = b.blks := rfl
@[simp] theorem setLink_latches (k : Nat) (x : Link) : (setLink b k x).latches = b.latches := rfl
@[simp] theorem setLink_chipEvent (k : Nat) (x : Link) : (setLink b k x).chipEvent = b.chipEvent := rfl
@[simp] theorem setLink_wakes (k : Nat) (x : Link) : (setLink b k x).wakes = b.wakes := rfl
@[simp] theorem setLink_draining (k : Nat) (x : Link) : (setLink b k x).draining = b.draining := rfl
@[simp] theorem setLink_regionFault (k : Nat) (x : Link) : (setLink b k x).regionFault = b.regionFault := rfl
@[simp] theorem setLink_drks (k : Nat) (x : Link) : (setLink b k x).drks = b.drks := rfl
@[simp] theorem setLink_rcks (k : Nat) (x : Link) : (setLink b k x).rcks = b.rcks := rfl
@[simp] theorem setLink_torus (k : Nat) (x : Link) : (setLink b k x).torus = b.torus := rfl
@[simp] theorem setLink_house (k : Nat) (x : Link) : (setLink b k x).house = b.house := rfl
@[simp] theorem setLink_hp (k : Nat) (x : Link) : (setLink b k x).hp = b.hp := rfl
@[simp] theorem setLink_vy (k : Nat) (x : Link) : (setLink b k x).vy = b.vy := rfl
@[simp] theorem setLink_pw (k : Nat) (x : Link) : (setLink b k x).pw = b.pw := rfl
@[simp] theorem setLink_ft (k : Nat) (x : Link) : (setLink b k x).ft = b.ft := rfl
@[simp] theorem setLink_chip (k : Nat) (x : Link) : (setLink b k x).chip = b.chip := rfl
@[simp] theorem setLink_lastRan (k : Nat) (x : Link) : (setLink b k x).lastRan = b.lastRan := rfl
@[simp] theorem setLink_opNext (k : Nat) (x : Link) : (setLink b k x).opNext = b.opNext := rfl
@[simp] theorem setLink_freeCtr (k : Nat) (x : Link) : (setLink b k x).freeCtr = b.freeCtr := rfl
@[simp] theorem setLink_egress (k : Nat) (x : Link) : (setLink b k x).egress = b.egress := rfl

/-! ### setBlk -/

@[simp] theorem setBlk_geo (k : Nat) (x : BlkCommon) : (setBlk b k x).geo = b.geo := rfl
@[simp] theorem setBlk_ctxs (k : Nat) (x : BlkCommon) : (setBlk b k x).ctxs = b.ctxs := rfl
@[simp] theorem setBlk_running (k : Nat) (x : BlkCommon) : (setBlk b k x).running = b.running := rfl
@[simp] theorem setBlk_units (k : Nat) (x : BlkCommon) : (setBlk b k x).units = b.units := rfl
@[simp] theorem setBlk_tiles (k : Nat) (x : BlkCommon) : (setBlk b k x).tiles = b.tiles := rfl
@[simp] theorem setBlk_mem (k : Nat) (x : BlkCommon) : (setBlk b k x).mem = b.mem := rfl
@[simp] theorem setBlk_stale (k : Nat) (x : BlkCommon) : (setBlk b k x).stale = b.stale := rfl
@[simp] theorem setBlk_memErr (k : Nat) (x : BlkCommon) : (setBlk b k x).memErr = b.memErr := rfl
@[simp] theorem setBlk_pages (k : Nat) (x : BlkCommon) : (setBlk b k x).pages = b.pages := rfl
@[simp] theorem setBlk_mcs (k : Nat) (x : BlkCommon) : (setBlk b k x).mcs = b.mcs := rfl
@[simp] theorem setBlk_ct (k : Nat) (x : BlkCommon) : (setBlk b k x).ct = b.ct := rfl
@[simp] theorem setBlk_fab (k : Nat) (x : BlkCommon) : (setBlk b k x).fab = b.fab := rfl
@[simp] theorem setBlk_sessions (k : Nat) (x : BlkCommon) : (setBlk b k x).sessions = b.sessions := rfl
@[simp] theorem setBlk_eventNo (k : Nat) (x : BlkCommon) : (setBlk b k x).eventNo = b.eventNo := rfl
@[simp] theorem setBlk_latches (k : Nat) (x : BlkCommon) : (setBlk b k x).latches = b.latches := rfl
@[simp] theorem setBlk_chipEvent (k : Nat) (x : BlkCommon) : (setBlk b k x).chipEvent = b.chipEvent := rfl
@[simp] theorem setBlk_wakes (k : Nat) (x : BlkCommon) : (setBlk b k x).wakes = b.wakes := rfl
@[simp] theorem setBlk_draining (k : Nat) (x : BlkCommon) : (setBlk b k x).draining = b.draining := rfl
@[simp] theorem setBlk_regionFault (k : Nat) (x : BlkCommon) : (setBlk b k x).regionFault = b.regionFault := rfl
@[simp] theorem setBlk_drks (k : Nat) (x : BlkCommon) : (setBlk b k x).drks = b.drks := rfl
@[simp] theorem setBlk_rcks (k : Nat) (x : BlkCommon) : (setBlk b k x).rcks = b.rcks := rfl
@[simp] theorem setBlk_links (k : Nat) (x : BlkCommon) : (setBlk b k x).links = b.links := rfl
@[simp] theorem setBlk_torus (k : Nat) (x : BlkCommon) : (setBlk b k x).torus = b.torus := rfl
@[simp] theorem setBlk_house (k : Nat) (x : BlkCommon) : (setBlk b k x).house = b.house := rfl
@[simp] theorem setBlk_hp (k : Nat) (x : BlkCommon) : (setBlk b k x).hp = b.hp := rfl
@[simp] theorem setBlk_vy (k : Nat) (x : BlkCommon) : (setBlk b k x).vy = b.vy := rfl
@[simp] theorem setBlk_pw (k : Nat) (x : BlkCommon) : (setBlk b k x).pw = b.pw := rfl
@[simp] theorem setBlk_ft (k : Nat) (x : BlkCommon) : (setBlk b k x).ft = b.ft := rfl
@[simp] theorem setBlk_chip (k : Nat) (x : BlkCommon) : (setBlk b k x).chip = b.chip := rfl
@[simp] theorem setBlk_lastRan (k : Nat) (x : BlkCommon) : (setBlk b k x).lastRan = b.lastRan := rfl
@[simp] theorem setBlk_opNext (k : Nat) (x : BlkCommon) : (setBlk b k x).opNext = b.opNext := rfl
@[simp] theorem setBlk_freeCtr (k : Nat) (x : BlkCommon) : (setBlk b k x).freeCtr = b.freeCtr := rfl
@[simp] theorem setBlk_egress (k : Nat) (x : BlkCommon) : (setBlk b k x).egress = b.egress := rfl

/-! ### setSession -/

@[simp] theorem setSession_geo (id : Nat) (s : Session) : (setSession b id s).geo = b.geo := rfl
@[simp] theorem setSession_ctxs (id : Nat) (s : Session) : (setSession b id s).ctxs = b.ctxs := rfl
@[simp] theorem setSession_running (id : Nat) (s : Session) : (setSession b id s).running = b.running := rfl
@[simp] theorem setSession_units (id : Nat) (s : Session) : (setSession b id s).units = b.units := rfl
@[simp] theorem setSession_tiles (id : Nat) (s : Session) : (setSession b id s).tiles = b.tiles := rfl
@[simp] theorem setSession_mem (id : Nat) (s : Session) : (setSession b id s).mem = b.mem := rfl
@[simp] theorem setSession_stale (id : Nat) (s : Session) : (setSession b id s).stale = b.stale := rfl
@[simp] theorem setSession_memErr (id : Nat) (s : Session) : (setSession b id s).memErr = b.memErr := rfl
@[simp] theorem setSession_pages (id : Nat) (s : Session) : (setSession b id s).pages = b.pages := rfl
@[simp] theorem setSession_mcs (id : Nat) (s : Session) : (setSession b id s).mcs = b.mcs := rfl
@[simp] theorem setSession_ct (id : Nat) (s : Session) : (setSession b id s).ct = b.ct := rfl
@[simp] theorem setSession_fab (id : Nat) (s : Session) : (setSession b id s).fab = b.fab := rfl
@[simp] theorem setSession_eventNo (id : Nat) (s : Session) : (setSession b id s).eventNo = b.eventNo := rfl
@[simp] theorem setSession_blks (id : Nat) (s : Session) : (setSession b id s).blks = b.blks := rfl
@[simp] theorem setSession_latches (id : Nat) (s : Session) : (setSession b id s).latches = b.latches := rfl
@[simp] theorem setSession_chipEvent (id : Nat) (s : Session) : (setSession b id s).chipEvent = b.chipEvent := rfl
@[simp] theorem setSession_wakes (id : Nat) (s : Session) : (setSession b id s).wakes = b.wakes := rfl
@[simp] theorem setSession_draining (id : Nat) (s : Session) : (setSession b id s).draining = b.draining := rfl
@[simp] theorem setSession_regionFault (id : Nat) (s : Session) : (setSession b id s).regionFault = b.regionFault := rfl
@[simp] theorem setSession_drks (id : Nat) (s : Session) : (setSession b id s).drks = b.drks := rfl
@[simp] theorem setSession_rcks (id : Nat) (s : Session) : (setSession b id s).rcks = b.rcks := rfl
@[simp] theorem setSession_links (id : Nat) (s : Session) : (setSession b id s).links = b.links := rfl
@[simp] theorem setSession_torus (id : Nat) (s : Session) : (setSession b id s).torus = b.torus := rfl
@[simp] theorem setSession_house (id : Nat) (s : Session) : (setSession b id s).house = b.house := rfl
@[simp] theorem setSession_hp (id : Nat) (s : Session) : (setSession b id s).hp = b.hp := rfl
@[simp] theorem setSession_vy (id : Nat) (s : Session) : (setSession b id s).vy = b.vy := rfl
@[simp] theorem setSession_pw (id : Nat) (s : Session) : (setSession b id s).pw = b.pw := rfl
@[simp] theorem setSession_ft (id : Nat) (s : Session) : (setSession b id s).ft = b.ft := rfl
@[simp] theorem setSession_chip (id : Nat) (s : Session) : (setSession b id s).chip = b.chip := rfl
@[simp] theorem setSession_lastRan (id : Nat) (s : Session) : (setSession b id s).lastRan = b.lastRan := rfl
@[simp] theorem setSession_opNext (id : Nat) (s : Session) : (setSession b id s).opNext = b.opNext := rfl
@[simp] theorem setSession_freeCtr (id : Nat) (s : Session) : (setSession b id s).freeCtr = b.freeCtr := rfl
@[simp] theorem setSession_egress (id : Nat) (s : Session) : (setSession b id s).egress = b.egress := rfl

/-! ### Reading back -/

@[simp] theorem img_setImg_self (c : Nat) (u : UnitId) (i : UnitImg) : img (setImg b c u i) c u = i := by
  simp [img, setImg]

theorem img_setImg_other (c k : Nat) (u v : UnitId) (i : UnitImg) (h : unitKey k v ≠ unitKey c u) :
    img (setImg b c u i) k v = img b k v := by
  simp [img, setImg, tget_tput_other _ _ _ _ _ _ h]

@[simp] theorem tileHw_setTileHw_self (t : Nat) (h : TileHw) : tileHw (setTileHw b t h) t = h := by
  simp [tileHw, setTileHw]

@[simp] theorem mcOf_setMc_self (k : Nat) (m : Mc) : mcOf (setMc b k m) k = m := by
  simp [mcOf, setMc]

@[simp] theorem ctxOf_setCtx_self (c : Nat) (x : Ctx) : ctxOf (setCtx b c x) c = x := by
  simp [ctxOf, setCtx, tget]

@[simp] theorem drkOf_setDrk_self (k : Nat) (x : Drk) : drkOf (setDrk b k x) k = x := by
  simp [drkOf, setDrk]

@[simp] theorem rckOf_setRck_self (k : Nat) (x : Rck) : rckOf (setRck b k x) k = x := by
  simp [rckOf, setRck]

@[simp] theorem linkOf_setLink_self (k : Nat) (x : Link) : linkOf (setLink b k x) k = x := by
  simp [linkOf, setLink]

theorem linkOf_setLink_other (k j : Nat) (x : Link) (h : j ≠ k) : linkOf (setLink b k x) j = linkOf b j := by
  simp [linkOf, setLink, tget_tput_other _ _ _ _ _ _ h]

@[simp] theorem blkOf_setBlk_self (k : Nat) (x : BlkCommon) : blkOf (setBlk b k x) k = x := by
  simp [blkOf, setBlk]

/-! ### Registers of a unit (R135) -/

variable (i : UnitImg)

theorem freg_setF (r q : BitVec 5) (x : U64) : freg (setF i r x) q = if q = r then x else freg i q := by
  unfold freg setF
  by_cases hq : q = r
  · subst hq; simp
  · have : r.toNat ≠ q.toNat := fun e => hq (BitVec.eq_of_toNat_eq e.symm)
    simp [this, hq]

@[simp] theorem freg_setS (r q : BitVec 5) (x : U64) : freg (setS i r x) q = freg i q := by
  unfold setS; split <;> rfl

@[simp] theorem sreg_setF (r q : BitVec 5) (x : U64) : sreg (setF i r x) q = sreg i q := rfl

end Sys2Proof.Machine
end

