-- ==== Sys2Proof/Laws/Ops.lean ====
section
/-!
SUPPORT. What the shared operations do: a command acting, an instruction issuing, retiring or waiting, clamps counted, a
tensor instruction run, a host command checked, the schedule that follows every command.
-/
namespace Sys2Proof.Machine

/-! ### Commands -/

/-- A command's effect `f`, with what follows every command. -/
theorem act_next (f : Block → Block) (s : State) : act f s = .next (became s (f s.blk)) := rfl

/-- In Idle or above a command has its effect. -/
theorem actUp_next (f : Block → Block) (s : State) (h : Up s) : actUp f s = .next (became s (f s.blk)) := by
  unfold Up at h
  simp [actUp, act, became, h]

/-- Below Idle it has none. -/
theorem actUp_off (f : Block → Block) (s : State) (h : ¬ Up s) : actUp f s = .next (became s s.blk) := by
  unfold Up at h
  simp [actUp, act, became, h]

/-- With the rails on a command of a powered part has its effect. -/
theorem actPowered_next (f : Block → Block) (s : State) (h : s.blk.pw.phase ≠ .standby) :
    actPowered f s = .next (became s (f s.blk)) := by
  simp [actPowered, act, became, h]

@[simp] theorem became_pending (s : State) (b : Block) : (became s b).pending = s.pending := rfl
@[simp] theorem became_blk (s : State) (b : Block) : (became s b).blk = after s.blk b := rfl

/-- Where no unit waits, nothing settles. -/
theorem settleAll_none (b : Block) (h : waiters b = []) : settleAll b = b := by simp [settleAll, settleN, h]

/-- While a context runs with no unit waiting, no drain under way and no debug step due, nothing more follows. -/
theorem after_id (b0 b : Block) (c : Nat) (h : b.running = some c) (h1 : b.chip.stepOnce = none) (h2 : waiters b = [])
    (h3 : b.draining = false) : after b0 b = b := by
  simp [after, endStep, finishDrain, settleAll_none b h2, h, h1, h3, schedule_running b c h]

/-- The schedule leaves the block at rest. -/
theorem scheduleN_rested (n : Nat) (b : Block) : Rested (scheduleN n b) := by
  induction n generalizing b with
  | zero =>
    unfold scheduleN
    split
    · rename_i c h; intro h1; rw [h] at h1; cases h1
    · split
      · rename_i h h2; intro _ h3; rw [h3] at h2; cases h2
      · split
        · rename_i h3; intro _ _; exact ⟨h3, rfl⟩
        · intro h4; cases h4
  | succ n ih =>
    unfold scheduleN
    split
    · rename_i c h; intro h1; rw [h] at h1; cases h1
    · split
      · rename_i h h2; intro _ h3; rw [h3] at h2; cases h2
      · split
        · rename_i h3; intro _ _; exact ⟨h3, rfl⟩
        · exact ih _

theorem after_rested (b0 b : Block) : Rested (after b0 b) := scheduleN_rested 16 _

/-! ### Instructions -/

/-- A legal instruction of a unit that can execute has its effect. -/
theorem issue_effect (s : State) (u : UnitId) (c : Nat) (h : Executes s u c) (w : U64) (e : Nat → UnitImg → Block) :
    issue s.blk u w true e = e c (img s.blk c u) := by
  obtain ⟨_, h2, h3⟩ := h
  simp [issue, h2, h3]

/-- An illegal one takes an exception of cause 1 (R139). -/
theorem issue_illegal (s : State) (u : UnitId) (c : Nat) (h : Executes s u c) (w : U64) (e : Nat → UnitImg → Block) :
    issue s.blk u w false e = takeExc s.blk c u 1 0 w := by
  obtain ⟨_, h2, h3⟩ := h
  simp [issue, h2, h3]

@[simp] theorem retire_img (b : Block) (c : Nat) (u : UnitId) (i : UnitImg) :
    img (retire b c u i) c u = { nextPc i with run := .running } := by
  simp [retire]

theorem retire_other (b : Block) (c k : Nat) (u v : UnitId) (i : UnitImg) (h : unitKey k v ≠ unitKey c u) :
    img (retire b c u i) k v = img b k v :=
  img_setImg_other b c k u v _ h

/-- Retiring changes nothing but the image of the unit. -/
theorem retire_frame (b : Block) (c : Nat) (u : UnitId) (i : UnitImg) : { retire b c u i with units := b.units } = b := rfl

@[simp] theorem retire_running (b : Block) (c : Nat) (u : UnitId) (i : UnitImg) : (retire b c u i).running = b.running :=
  rfl

@[simp] theorem retire_chip (b : Block) (c : Nat) (u : UnitId) (i : UnitImg) : (retire b c u i).chip = b.chip := rfl

@[simp] theorem park_img (b : Block) (c : Nat) (u : UnitId) (i : UnitImg) (k : WaitKind) (w : U64) :
    img (park b c u i k w) c u = { i with run := .waiting k w } := by
  simp [park]

/-! ### Counters -/

@[simp] theorem satAdd_zero {w : Nat} (x : BitVec w) : satAdd x 0 = x := by
  simp only [satAdd, Nat.add_zero]
  rw [Nat.min_eq_left (by have := x.isLt; omega)]
  simp

/-- No clamp counts nothing; clamps count in OP_CLAMP alone. -/
@[simp] theorem countEv_clamps_zero (i : UnitImg) : countEv i (evClamps 0) = i := by
  simp [countEv, cntAdd, evClamps]

theorem countEv_clamps (n : Nat) (i : UnitImg) : countEv i (evClamps n) = addClamps n i := by
  simp [countEv, cntAdd, evClamps, addClamps]

/-! ### Tensor instructions -/

/-- A legal tensor instruction in whose way nothing stands computes from what its reads met and writes what it computed. -/
theorem tensorEff_ready (s : State) (u : UnitId) (c : Nat) (h : Executes s u c) (op : Nat) (o : Ops) (array : ArrayOp)
    (exc : Nat → UnitImg → Option (Nat × U64)) (reads writes : Nat → UnitImg → List (U64 × Nat))
    (run : Nat → UnitImg → Block → TOut × UnitImg) (hl : isTile u = true) (he : exc c (img s.blk c u) = none)
    (hr : TensorReady s.blk c u op o (array.blocks (img s.blk c u)) (reads c (img s.blk c u)) (writes c (img s.blk c u))) :
    tensorEff u op o true array s.blk exc reads writes run =
      tensorDone c u (mkWord 16 op o)
        (checked u op o (array.blocks (img s.blk c u)) (meetReads s.blk c u (reads c (img s.blk c u)))).1
        (meetReads s.blk c u (reads c (img s.blk c u))).refused
        (run c (img s.blk c u) (meetReads s.blk c u (reads c (img s.blk c u))).view) := by
  obtain ⟨h1, h2, h3, h4⟩ := hr
  simp only [checked, Prod.mk.injEq] at h4
  simp [tensorEff, issue_effect s u c h, h1, h2, h3, h4.1, h4.2, he, tensorDone, checked, hl]

/-! ### Host commands -/

/-- A command that passes every check is executed, with its counter taken when it is critical, and answered. -/
theorem command_accepted (b : Block) (x : Session) (op : Nat) (critical : Bool) (roles : List Role) (h : Cmd)
    (f : Block → Session → Run) (a : Accepted b op critical roles h x) :
    command op critical roles h f b =
      answer (f (if critical then afterCounter b h else b) x).1 op h (f (if critical then afterCounter b h else b) x).2 := by
  obtain ⟨h1, h2, h3, h4, h5, h6, h7⟩ := a
  simp only [command, h1, h2]
  rw [if_neg (by simpa using h3)]
  simp only [runCommand]
  rw [if_neg (by simpa using h4), if_neg (by simpa using h5), if_neg (by rw [h6]; simp)]
  cases critical with
  | false => simp
  | true =>
    obtain ⟨h8, h9⟩ := h7 rfl
    rw [if_pos (by simp), if_neg (by simpa using h8), if_neg (by omega)]
    rfl

end Sys2Proof.Machine
end

