-- ==== Sys2Proof/Laws/Registers.lean ====
section
/-!
SUPPORT. Register writes: the block and offset that a control address names, and what a write to a block without a pending
half of a pair comes to.
-/
namespace Sys2Proof.Machine

theorem blkIndex_ctlAddr (n o : Nat) (hn : n < 0x10480) (h : o < 0x10000) : blkIndex (ctlAddr n o) = n := by
  unfold blkIndex spaceOff ctlAddr ctlBase; omega

theorem offset_ctlAddr (n o : Nat) (h : o < 0x10000) : ctlAddr n o % 0x10000 = o := by
  unfold ctlAddr ctlBase; omega

theorem align_ctlAddr (n o : Nat) (h : o % 4 = 0) : ctlAddr n o / 4 * 4 = ctlAddr n o := by
  unfold ctlAddr ctlBase; omega

theorem isControl_ctlAddr (n o : Nat) (hn : n < 0x10480) (h : o < 0x10000) : isControl (ctlAddr n o) = true := by
  unfold isControl spaceOf ctlAddr ctlBase sramBase
  rw [if_neg (by omega), if_neg (by omega), if_neg (by omega), if_pos (by omega)]

/-- A block that is there has a number below 0x10480. -/
theorem blkAt_lt (b : Block) (n : Nat) (h : blkAt b n ≠ .none) : n < 0x10480 := by
  by_contra hn
  apply h
  unfold blkAt
  rw [if_neg (by omega), if_neg (by omega), if_neg (by omega), if_neg (by omega), if_neg (by omega), if_neg (by omega)]

/-! ### Which block a number names -/

theorem blkAt_chip (b : Block) : blkAt b 0 = .chip := by simp [blkAt]

theorem blkAt_hostPort (b : Block) : blkAt b 0xC0 = .hostPort := by simp [blkAt]

theorem blkAt_link (b : Block) (k : Fin 32) : blkAt b (0x80 + k.val) = .link k.val := by
  have := k.isLt
  unfold blkAt
  rw [if_neg (by omega), if_pos (by omega), Nat.add_sub_cancel_left]

/-- The five blocks of region k. -/
theorem blkAt_region (b : Block) (k : Fin 12) (j : Nat) (hj : j < 5) :
    blkAt b (0x100 + j + 16 * k.val) =
      if j = 0 then .region k.val else if j = 1 then .mc k.val else if j = 2 then .reckoner k.val
      else if j = 3 then .derrick k.val else .engine k.val := by
  have := k.isLt
  have e : (0x100 + j + 16 * k.val - 0x100) / 16 = k.val := by omega
  have r : (0x100 + j + 16 * k.val) % 16 = j := by omega
  unfold blkAt
  rw [if_neg (by omega), if_neg (by omega), if_neg (by omega), if_neg (by omega), if_pos (by omega)]
  simp only [e, r]
  by_cases h4 : j = 4
  · subst h4; simp
  · have h : j = 0 ∨ j = 1 ∨ j = 2 ∨ j = 3 := by omega
    rcases h with h | h | h | h <;> subst h <;> simp

theorem blkAt_tile_of (b : Block) (n t : Nat) (hn : n = t + 0x10000) (ht : t < 1152) (hp : tilePresent b t = true) :
    blkAt b n = .tile t := by
  have m : n % 0x10000 = t := by omega
  unfold blkAt
  rw [if_neg (by omega), if_neg (by omega), if_neg (by omega), if_neg (by omega), if_neg (by omega), if_pos (by omega), m,
    if_pos hp]

theorem blkAt_tile (b : Block) (t : Fin 1152) (hp : tilePresent b t.val = true) :
    blkAt b (0x10000 + t.val) = .tile t.val :=
  blkAt_tile_of b _ t.val (Nat.add_comm _ _) t.isLt hp

/-- A register write at an aligned offset of block n is that block's write. -/
theorem regWrite_ctlAddr (b : Block) (n o : Nat) (v : U32) (hn : n < 0x10480) (h : o < 0x10000) (h4 : o % 4 = 0) :
    regWrite (ctlAddr n o) v b = Wr.block (blkWrite b n o v) := by
  rw [regWrite, ctlWrite, align_ctlAddr n o h4, isControl_ctlAddr n o hn h, blkIndex_ctlAddr n o hn h,
    offset_ctlAddr n o h, if_pos rfl]

theorem expirePair_quiet (b : Block) (n : Nat) (h : (blkOf b n).pair = none) : expirePair b n = b := by
  simp [expirePair, h]

theorem agePair_quiet (b : Block) (n : Nat) (h : (blkOf b n).pair = none) : agePair b n = b := by
  simp [agePair, h]

/-- A write that is neither to a common register nor to a shadowed one. -/
theorem blkWrite_plain (b : Block) (n o : Nat) (v : U32) (k : Blk) (hk : blkAt b n = k) (hn : k ≠ .none)
    (hq : (blkOf b n).pair = none) (h0 : o ≠ 0xFFF0) (h1 : o ≠ 0xFFF4) (hs : shadowFix k o v = none) :
    blkWrite b n o v = plainWrite b n o v k := by
  subst hk
  unfold blkWrite
  split
  · rename_i h; exact absurd h hn
  · simp only [expirePair_quiet b n hq, agePair_quiet b n hq, ite_self, h0, h1, if_false, hs]

/-- A write to a shadowed register waits in its shadow. -/
theorem blkWrite_shadow (b : Block) (n o : Nat) (v : U32) (r : U32 × Nat) (hn : blkAt b n ≠ .none)
    (hq : (blkOf b n).pair = none) (h0 : o ≠ 0xFFF0) (h1 : o ≠ 0xFFF4) (hs : shadowFix (blkAt b n) o v = some r) :
    blkWrite b n o v =
      counted (setBlk b n { blkOf b n with shadow := tins (blkOf b n).shadow o r.1, pending := true }) n r.2 := by
  unfold blkWrite
  split
  · rename_i h; exact absurd h hn
  · simp only [expirePair_quiet b n hq, agePair_quiet b n hq, ite_self, h0, h1, if_false, hs]

/-- UPD.GO. -/
theorem blkWrite_go (b : Block) (n : Nat) (hn : blkAt b n ≠ .none) (hq : (blkOf b n).pair = none) :
    blkWrite b n 0xFFF4 1 = (applyBlk b n, 0) := by
  unfold blkWrite
  split
  · rename_i h; exact absurd h hn
  · simp [expirePair_quiet b n hq, agePair_quiet b n hq]

/-- What a masked write of one bit sets. -/
theorem maskBit_bitWrite_0 (x : Bool) : maskBit (bitWrite 0 x) 0 = some x ∧ maskBit (bitWrite 0 x) 1 = none ∧
    maskBit (bitWrite 0 x) 2 = none := by
  cases x <;> decide

theorem maskBit_bitWrite_1 (x : Bool) : maskBit (bitWrite 1 x) 0 = none ∧ maskBit (bitWrite 1 x) 1 = some x ∧
    maskBit (bitWrite 1 x) 2 = none := by
  cases x <;> decide

theorem maskBit_bitWrite_2 (x : Bool) : maskBit (bitWrite 2 x) 0 = none ∧ maskBit (bitWrite 2 x) 1 = none ∧
    maskBit (bitWrite 2 x) 2 = some x := by
  cases x <;> decide

end Sys2Proof.Machine
end

