-- ==== Sys2Proof/WellFormed.lean ====
section
/-!
DEFINITION. Which commands are well formed: the ranges and lengths that the specification gives the operands and that
their types do not hold already.
-/
namespace Sys2Proof

open Machine

/-- A request carries at most 256 bytes (R192). -/
def requestOk (r : Request) : Bool :=
  match r.op with
  | .put x => decide (x.length ≤ 256)
  | .get n => decide (n ≤ 256)
  | .signal _ => true
  | .take => true
  | .radd kind _ _ _ x => decide (kind ≤ 6 ∧ x.length ≤ 256)

/-- A response has a status of R294 and at most 256 bytes. -/
def responseOk (r : Response) : Bool := decide (r.status ≤ 8 ∧ r.data.length ≤ 256)

/-- Four credit counts of 16 bits (R308). -/
def creditsOk (l : List Nat) : Bool := decide (l.length = 4) && l.all fun n => decide (n < 2 ^ 16)

/-- A context byte and a local address of a bulk frame (R431). -/
def bulkOk (c l : Nat) : Bool := decide (c < 256 ∧ l < 2 ^ 49)

/-- Every host command carries a check of 16 bytes, and a target of 16 bits (R424). -/
def cmdOk (h : Cmd) : Bool := decide (h.check.length = 16 ∧ h.target < 2 ^ 16 ∧ h.len < 2 ^ 32)

/-- Lengths of a signature record's arrays, its target kind, region and index, and the cause of a fault (R498, R505). -/
def failOk (f : BoreFail) : Bool :=
  decide (f.unit.length = 4 ∧ f.pattern.length = 4 ∧ f.conditions.length = 5 ∧ f.outcome ≤ 2 ∧ f.cause < 16 ∧
    0 ≤ f.unit.getD 0 0 ∧ f.unit.getD 0 0 ≤ 11 ∧ f.unit.getD 1 0 ≤ 11 ∧ f.unit.getD 2 0 ≤ 127)

/-- A start meets twelve stacks and twelve regions (R479). -/
def startOk (io : ItinIn) : Bool :=
  decide (io.training.length = 12 ∧ io.tiles.length = 12) && io.fails.all failOk

/-- Debug port addresses are local addresses. -/
def debugOk : DebugOp → Bool
  | .regRead l => decide (l < 2 ^ 49)
  | .regWrite l _ => decide (l < 2 ^ 49)
  | .memRead l _ => decide (l < 2 ^ 49)
  | .memWrite l _ => decide (l < 2 ^ 49)
  | .halt _ _ => true
  | .step _ => true

def Instr.wf : Instr → Bool
  | .add _ _ => true
  | .sub _ _ => true
  | .mul _ _ => true
  | .div _ _ => true
  | .and _ _ => true
  | .or _ _ => true
  | .xor _ _ => true
  | .shl _ _ => true
  | .shr _ _ => true
  | .sra _ _ => true
  | .addi _ _ => true
  | .ld _ _ => true
  | .st _ _ => true
  | .beq _ _ => true
  | .bne _ _ => true
  | .blt _ _ => true
  | .bge _ _ => true
  | .jal _ _ => true
  | .jalr _ _ => true
  | .fadd _ _ => true
  | .fsub _ _ => true
  | .fmul _ _ => true
  | .fdiv _ _ => true
  | .fsqrt _ _ => true
  | .fma _ _ => true
  | .fmin _ _ => true
  | .fmax _ _ => true
  | .fcvt _ _ => true
  | .sysr _ _ => true
  | .sysw _ _ => true
  | .syswXret _ _ => true
  | .vsetvl _ _ => true
  | .vld _ _ => true
  | .vst _ _ => true
  | .vadd _ _ => true
  | .vmul _ _ => true
  | .vfma _ _ => true
  | .vmin _ _ => true
  | .vmax _ _ => true
  | .vred _ _ => true
  | .mma _ _ => true
  | .cvt _ _ => true
  | .cvtRoll _ _ => true
  | .ewu _ _ => true
  | .ewb _ _ => true
  | .tred _ _ => true
  | .mskp _ _ => true
  | .mskx _ _ => true
  | .txp _ _ => true
  | .movb _ _ => true
  | .gth _ _ => true
  | .sct _ _ => true
  | .scta _ _ => true
  | .hpush _ _ => true
  | .hpop _ _ => true
  | .tieOpen _ _ => true
  | .tieAdd _ _ => true
  | .tiex _ _ => true
  | .put _ _ => true
  | .get _ _ => true
  | .radd _ _ => true
  | .puts _ _ => true
  | .waitc _ _ => true
  | .waitcTimeout _ => true
  | .tileWake _ => true
  | .fence _ _ => true
  | .coll _ _ => true
  | .dsub _ _ => true
  | .dpoll _ _ => true
  | .lgf _ _ => true
  | .stepend _ _ => true
  | .stepClose => true
  | .pairCheck => true
  | .stepLimitExpiry => true
  | .ledgerRingWaitEnd => true
  | .dnext _ _ => true
  | .dnextTimeout _ => true
  | .dapply _ _ => true
  | .dprep _ _ => true
  | .diter _ _ => true
  | .dfin _ _ _ => true
  | .dstat _ _ _ => true
  | .batchEnqueue _ => true
  | .updNormPartial _ _ => true
  | .updNormTotal _ _ => true
  | .updAdam _ _ => true
  | .updAdamw _ _ => true
  | .updSgdm _ _ => true
  | .collEngineProgram _ => true
  | .allGather _ => true
  | .reduceScatter _ => true
  | .broadcast _ => true
  | .permute _ => true
  | .collUndefinedKind _ => true
  | .collWaitTimeout _ => true
  | .requestArrival r => requestOk r
  | .responseArrival r => responseOk r
  | .requestTimeout _ => true
  | .tagQuarantineEnd _ => true
  | .flitReceive _ lanes => decide (lanes.length = 9)
  | .linkControlFlit _ _ _ _ credits => creditsOk credits
  | .linkControlInterval _ => true
  | .flitSwitchDiscard _ _ => true
  | .linkRetrain _ cause => decide (cause ≤ 2)
  | .linkDetect _ _ => true
  | .linkEqualize _ => true
  | .linkTest _ errs => decide (errs.length = 9)
  | .linkAlign _ => true
  | .linkIdent _ _ _ _ _ => true
  | .linkKey _ _ => true
  | .linkNarrow _ => true
  | .linkWiden _ => true
  | .remapRedraw => true
  | .mcScrub _ => true
  | .tileScrub _ => true
  | .selfRefreshEntry _ => true
  | .selfRefreshExit _ => true
  | .temperatureBandReport _ _ => true
  | .throttleRelax _ => true
  | .regionPllLock _ => true
  | .regionPllLockLoss _ => true
  | .svuPowerDown _ => true
  | .houseBeatTimer => true
  | .houseMessageArrival r => requestOk r
  | .beat _ => true
  | .alive _ => true
  | .suspect _ => true
  | .probe _ => true
  | .echo _ => true
  | .dead _ => true
  | .prepare _ => true
  | .ready _ => true
  | .commit _ => true
  | .relay _ _ => true
  | .sig _ => true
  | .join _ => true
  | .admitModule _ => true
  | .memberSilence _ => true
  | .keeperSilence c => decide (1 ≤ c ∧ c ≤ 64)
  | .probeTimeout _ => true
  | .readyTimeout _ => true
  | .suspectReport _ => true
  | .hostFrameReceive _ _ _ => true
  | .hostResendTimer _ _ => true
  | .hostAckTimer _ _ => true
  | .sessionInactivity _ => true
  | .hello role _ => decide (role < 256)
  | .encap _ _ => true
  | .agreementTimeout _ => true
  | .arpRequest _ _ _ => true
  | .neighbourSolicitation _ _ _ => true
  | .echoRequest _ _ _ _ _ => true
  | .status h => cmdOk h
  | .identity h => cmdOk h
  | .sessionClose h => cmdOk h
  | .regRead h => cmdOk h
  | .regWrite h => cmdOk h
  | .ctxCreate h => cmdOk h
  | .ctxDestroy h => cmdOk h
  | .ctxRun h => cmdOk h
  | .ctxDrain h => cmdOk h
  | .checkpoint h => cmdOk h
  | .resume h => cmdOk h
  | .streamAttach h => cmdOk h
  | .programLoad h => cmdOk h
  | .keyLoadBindOwner h => cmdOk h
  | .keyLoadEnrolOperator h => cmdOk h
  | .keyLoadRemoveOperator h => cmdOk h
  | .firmwareLoad h => cmdOk h
  | .lock h => cmdOk h
  | .debug h => cmdOk h
  | .reset h => cmdOk h
  | .fleetTestRun h => cmdOk h
  | .fleetTestRemove h => cmdOk h
  | .signaturesRead h => cmdOk h
  | .signaturesAck h => cmdOk h
  | .spareOverride h => cmdOk h
  | .torusTable h => cmdOk h
  | .bulkWrite _ _ c l _ => bulkOk c l
  | .bulkWriteSignal _ _ c l _ ctr _ => bulkOk c l && decide (ctr < 2 ^ 49)
  | .bulkReadRequest _ _ c l _ => bulkOk c l
  | .tileCtrlHalt _ _ => true
  | .tileReset _ => true
  | .drkCtrlHalt _ _ => true
  | .drkCtrlReset _ => true
  | .drkForceWrite _ _ => true
  | .rckCtrlHalt _ _ => true
  | .mcCtrlFlush _ => true
  | .linkCtrlDisable _ _ => true
  | .linkCtrlRetrain _ => true
  | .linkCtrlNarrowEn _ _ => true
  | .laneTestPattern _ _ _ _ => true
  | .laneTestInject _ => true
  | .hpCtrlDisable _ => true
  | .hpCtrlForce800 _ => true
  | .hpTestPattern _ => true
  | .updGo n => decide (n < 0x10480)
  | .groupStrobe _ => true
  | .guardedPairWrite _ _ => true
  | .guardWindowExpiry n => decide (n < 0x10480)
  | .chipEventClear _ _ => true
  | .counterLowRead l => decide (l < 2 ^ 49)
  | .registerWrite l _ => decide (l < 2 ^ 49)
  | .pwrEnRise => true
  | .pwrEnFall => true
  | .rstLAssert => true
  | .moduleReset io => startOk io
  | .contextReset _ => true
  | .coldStart io => startOk io
  | .inputSample _ => true
  | .undervoltageLockout => true
  | .overvoltageTrip => true
  | .inputRecoveryStart => true
  | .powerCapWindow _ => true
  | .thermalCriticalPersist => true
  | .packageThermalAlert => true
  | .packageThermalTrip => true
  | .referenceLost => true
  | .boreRunEnd fails _ => fails.all failOk
  | .sequenceLimitRekey _ => true
  | .ethernetLinkChange _ => true
  | .hostPortRetry _ => true
  | .dhcpReply _ => true
  | .routerAdvertisement _ => true
  | .networkRecoveryRetry io => startOk io
  | .busTemperatureIndication _ _ => true
  | .entropyHealthFailure => true
  | .laneLockAcquired _ _ => true
  | .laneLockLost _ _ => true
  | .testAccessPort _ => true
  | .debugPortAccess d => debugOk d

end Sys2Proof
end

