-- ==== Sys2Proof/Tests/Slice0.lean ====
section
/-!
SUPPORT. Tests: the checks of WellFormed refuse, single steps give what the specification's tables say, and a state and
operands that meet the hypotheses of each statement.
-/
namespace Sys2Proof.Tests

set_option Elab.async false

open Sys2Proof Sys2Proof.Machine

/-! ### Small states -/

/-- Four general register fields of an instruction word: d, a, b, c. -/
def regs (d a b c : Nat) : Ops := BitVec.ofNat 52 (d * 2 ^ 47 + a * 2 ^ 42 + b * 2 ^ 37 + c * 2 ^ 32)

def tile0 : UnitId := .tile 0
def rck0 : UnitId := .reckoner 0
def drk0 : UnitId := .derrick 0

/-- A running unit with s1 and s2 set, at the start of its image. -/
def unit1 (x y : U64) : UnitImg :=
  { s := (Vector.replicate 32 0).set 1 x |>.set 2 y, run := .running, started := true, pc := 0x400000, xvec := 0x400100 }

/-- A module that is up, with context 0 running on every unit of region 0, its image in its page 2. -/
def block (x y : U64) : Block :=
  { geo := { regions := 1, derricks := 1, tiles := [96, 0, 0, 0, 0, 0, 0, 0, 0, 0, 0, 0], stackMask := 1, capBuses := 1 }
    ctxs := [(0, { st := .runnable, image := 0x400000, imgSize := 4096, epoch := 0x00100000, loaded := true })]
    running := some 0
    units := [(0, unit1 x y), (1, unit1 x y), (2, unit1 x y)]
    tiles := [(0, { halt := false, svuDown := false, svuIdle := 0 })]
    pages := [(2, 0), (3, 0)]
    pw := { phase := .up, pwrEn := true, vin := 4800, lastVin := 4800, regionPll := [(0, 2)] }
    hp := { link := 2, mac := 0x020000000001, ipv4 := true, ip4 := 0x0A000001 }
    sessions := [(7, { role := .operator, peer := [], z := [] })]
    drks := [(0, { halt := false })]
    rcks := [(0, { halt := false })] }

def st (x y : U64) : State := { blk := block x y }

/-- What command i leaves of s, by a reading of the block. -/
def out {α : Type} (i : Instr) (s : State) (f : Block → α) : Option α :=
  match exec i s with
  | .next t => some (f t.blk)
  | .fault _ => none
  | .refused _ => none

def s3 (b : Block) : U64 := sreg (img b 0 tile0) 3
def clamps0 (b : Block) : Nat := (img b 0 tile0).cnt.clamp.toNat

/-! ### WellFormed refuses -/

def cmd0 : Cmd :=
  { session := 7, flags := 0, len := 0, id := 1, counter := 256, target := 0, params := [], check := List.replicate 16 0 }

def rq : Request := { src := 1, tag := 0, epoch := 0x00100000, addr := 0x600000, op := .get 8 }

theorem test_wf_request : (Instr.requestArrival rq).wf = true ∧ (Instr.requestArrival { rq with op := .get 257 }).wf = false ∧
    (Instr.houseMessageArrival { rq with op := .put (List.replicate 257 0) }).wf = false := by decide +kernel

theorem test_wf_response :
    (Instr.responseArrival { dst := 0, src := 1, tag := 0, epoch := 0, status := 9, data := [] }).wf = false := by decide +kernel

theorem test_wf_flit : (Instr.flitReceive 0 []).wf = false ∧ (Instr.flitReceive 0 (List.replicate 9 [])).wf = true ∧
    (Instr.linkControlFlit 0 0 none 0 []).wf = false := by
  decide +kernel

theorem test_wf_link : (Instr.linkRetrain 0 3).wf = false ∧ (Instr.linkTest 0 []).wf = false := by decide +kernel

theorem test_wf_house : (Instr.keeperSilence 0).wf = false ∧ (Instr.hello 256 []).wf = false := by decide +kernel

theorem test_wf_command : (Instr.status cmd0).wf = true ∧ (Instr.status { cmd0 with check := [] }).wf = false := by
  decide +kernel

theorem test_wf_bulk : (Instr.bulkWrite 7 1 256 0 []).wf = false ∧ (Instr.bulkWriteSignal 7 1 0 0 [] (2 ^ 49) 1).wf = false := by
  decide +kernel

theorem test_wf_register : (Instr.updGo 0x10480).wf = false ∧ (Instr.guardWindowExpiry 0x10480).wf = false ∧
    (Instr.counterLowRead (2 ^ 49)).wf = false ∧ (Instr.registerWrite (2 ^ 49) 0).wf = false ∧
    (Instr.debugPortAccess (.regRead (2 ^ 49))).wf = false := by decide +kernel

def peer0 : EtherPeer := { signal := true, trained := true, partnerFast := true, plugFast := true, plugPowered := true }

def start0 : ItinIn :=
  { railsOk := true, refOk := true, cellsOk := true, rootOk := true, ga := 5, fetched := none,
    training := List.replicate 12 { bad12 := [], bad8 := [] }, pins := [],
    tiles := List.replicate 12 0, derricks := 0xFFF, regions := 0xFFF, fails := [], ether := peer0, ms := 1200 }

theorem test_wf_start : (Instr.coldStart start0).wf = true ∧ (Instr.coldStart { start0 with tiles := [] }).wf = false ∧
    (Instr.moduleReset { start0 with training := [] }).wf = false := by decide +kernel

def fail0 : BoreFail := { unit := [], pattern := [], cells := [], total := 0, conditions := [], outcome := 3, cause := 0 }

theorem test_wf_failure : (Instr.boreRunEnd [fail0] false).wf = false := by decide +kernel

/-! ### Single steps, with results worked by hand from the tables of the specification -/

/-- R140: 2^64 - 1 + 2 wraps to 1. -/
theorem test_add_wraps : out (.add tile0 (regs 3 1 2 0)) (st 0xFFFFFFFFFFFFFFFF 2) s3 = some 1 := by decide +kernel

/-- R140, i form: 16-bit immediate -1. -/
theorem test_sub_immediate : out (.sub tile0 (regs 3 1 0 0 ||| 0x8000FFFF#52)) (st 5 0) s3 = some 6 := by decide +kernel

/-- R135: s0 reads zero after a write. -/
theorem test_s0_discards : out (.add tile0 (regs 0 1 2 0)) (st 5 6) (fun b => sreg (img b 0 tile0) 0) = some 0 := by
  decide +kernel

/-- R141: high halves of (-1) × 2, signed and unsigned. -/
theorem test_mul_high : out (.mul tile0 (regs 3 1 2 0 ||| 0x10000#52)) (st 0xFFFFFFFFFFFFFFFF 2) s3 = some 0xFFFFFFFFFFFFFFFF ∧
    out (.mul tile0 (regs 3 1 2 0 ||| 0x20000#52)) (st 0xFFFFFFFFFFFFFFFF 2) s3 = some 1 := by decide +kernel

/-- R141: a divisor of zero counts one clamp and leaves the dividend; -7 rem 2 is -1. -/
theorem test_div : out (.div tile0 (regs 3 1 2 0)) (st 9 0) (fun b => (s3 b, clamps0 b)) = some (9, 1) ∧
    out (.div tile0 (regs 3 1 2 0 ||| 0x20000#52)) (st (-7) 2) s3 = some (-1) := by decide +kernel

/-- R154: a shift of 64 is one of 63, and one clamp. -/
theorem test_shift_clamp : out (.shl tile0 (regs 3 1 2 0)) (st 3 64) (fun b => (s3 b, clamps0 b)) =
    some (0x8000000000000000, 1) := by decide +kernel

/-- R142: ST of two bytes of s2 at s1, least significant byte first; LD of one byte sign-extends. -/
theorem test_store : out (.st tile0 (regs 2 1 0 0 ||| 0x4000000000#52)) (st 0x600000 0xABCD)
    (fun b => (rdKey b 0x600000, rdKey b 0x600001, rdKey b 0x600002)) = some (0xCD, 0xAB, 0) := by decide +kernel

def stMem : State := { blk := { block 0x600000 0 with mem := [(0x600003, 0x80)] } }

theorem test_load_sign : out (.ld tile0 (regs 3 1 0 0 ||| 0x2000000003#52)) stMem s3 = some 0xFFFFFFFFFFFFFF80 := by
  decide +kernel

/-- R155: an unmapped address is cause 3 with the address in XADDR. -/
theorem test_load_unmapped : out (.ld tile0 (regs 3 1 0 0)) (st 0x900000 0)
    (fun b => ((img b 0 tile0).xcause, (img b 0 tile0).xaddr, (img b 0 tile0).pc)) =
    some (3, 0x900000, 0x400100) := by decide +kernel

/-- R143: BEQ of offset 2 goes two words from the branch; not taken, to the next word. -/
theorem test_beq : out (.beq tile0 (regs 0 1 2 0 ||| 2#52)) (st 4 4) (fun b => (img b 0 tile0).pc) = some 0x400010 ∧
    out (.beq tile0 (regs 0 1 2 0 ||| 2#52)) (st 4 5) (fun b => (img b 0 tile0).pc) = some 0x400008 := by decide +kernel

theorem test_jal : out (.jal tile0 (regs 3 0 0 0 ||| 4#52)) (st 0 0) (fun b => ((img b 0 tile0).pc, s3 b)) =
    some (0x400020, 0x400008) := by decide +kernel

/-- R144: 1.5 + 2.25 = 3.75 in binary64; R33: 1 ÷ 0 is infinity. -/
def stF (x y : U64) : State :=
  { blk := setImg (block 0 0) 0 tile0 { unit1 0 0 with f := (Vector.replicate 32 0).set 1 x |>.set 2 y } }

theorem test_fadd : out (.fadd tile0 (regs 3 1 2 0)) (stF 0x3FF8000000000000 0x4002000000000000)
    (fun b => freg (img b 0 tile0) 3) = some 0x400E000000000000 := by decide +kernel

theorem test_fdiv_zero : out (.fdiv tile0 (regs 3 1 2 0)) (stF 0x3FF0000000000000 0)
    (fun b => freg (img b 0 tile0) 3) = some 0x7FF0000000000000 := by decide +kernel

/-- R139, R156: a word with a reserved bit set enters handler state with cause 1 and XPC at the word. -/
theorem test_illegal : out (.add tile0 (regs 3 1 2 0 ||| 0x40000#52)) (st 1 1)
    (fun b => ((img b 0 tile0).handler, (img b 0 tile0).xcause, (img b 0 tile0).xpc, (img b 0 tile0).pc)) =
    some (true, 1, 0x400000, 0x400100) := by decide +kernel

/-- R158: with XVEC 0 the context halts on the module. -/
theorem test_context_fault : out (.add tile0 (regs 3 1 2 0 ||| 0x40000#52))
    { blk := setImg (block 0 0) 0 tile0 { unit1 0 0 with xvec := 0 } }
    (fun b => (b.running, (ctxOf b 0).st, (img b 0 tile0).run)) = some (none, .haltedFault, .halted) := by decide +kernel

/-- R154: SYSW XVEC clears bits [2:0] and counts one clamp. -/
theorem test_sysw_xvec : out (.sysw tile0 (regs 0 1 0 0 ||| 0x020#52)) (st 0x40010F 0)
    (fun b => ((img b 0 tile0).xvec, clamps0 b)) = some (0x400108, 1) := by decide +kernel

/-- The example at the end of R52: after 1.0, 2^-149, -1.0 and 2^-200 the slot holds V = 2^43, SEAM_UNDER and count 4. -/
theorem test_seam_example :
    let x := seamSum seamEmpty [.fin false 1 0, .fin false 1 (-149), .fin true 1 0, .fin false 1 (-200)]
    x.v = 0x80000000000 ∧ x.under = true ∧ x.sat = false ∧ x.count = 4 ∧ (seamBytes x).getD 5 0 = 8 := by decide +kernel

/-- R197: WAITC on a word that already holds the value writes 0. -/
theorem test_waitc : out (.waitc tile0 (regs 3 1 2 0)) (st 0x600000 0) s3 = some 0 := by decide +kernel

/-- R202: DPOLL of a region without a Derrick writes all ones. -/
theorem test_dpoll : out (.dpoll tile0 (regs 3 2 0 0 ||| 0x08000000#52)) (st 5 0) s3 = some 0xFFFFFFFFFFFFFFFF := by
  decide +kernel

/-- R313: eight lanes at this end and nine at the other lead to EQUALIZE, state 2. -/
theorem test_link_detect : out (.linkDetect 3 ⟨0x1FE, 0x1FF⟩) (st 0 0) (fun b => (linkOf b 3).st) = some 2 := by decide +kernel

/-- R444: a pair takes effect; a half that is not the complement is discarded and counted. -/
theorem test_guarded_pair : out (.guardedPairWrite 1 0xFFFFFFFE) (st 0 0) (fun b => b.chip.policy) = some 1 ∧
    out (.guardedPairWrite 1 1) (st 0 0) (fun b => (b.chip.policy, b.chip.guardDrop, b.chip.guardLast)) = some (4, 1, 8) := by
  decide +kernel

/-- R442, R447: POWER_CAP below 1 000 W waits in its shadow as 1 000 and comes into force with UPD.GO. -/
theorem test_shadow : out (.registerWrite (ctlAddr 0 0xB00C) 10) (st 0 0)
    (fun b => (b.pw.cap, (blkOf b 0).pending, (blkOf b 0).clamps)) = some (4800, true, 1) ∧
    out (.updGo 0) { blk := { block 0 0 with blks := [(0, { shadow := [(0xB00C, 1000)], pending := true })] } }
      (fun b => (b.pw.cap, (blkOf b 0).pending)) = some (1000, false) := by decide +kernel

/-- R475: PWR_EN high with the input above the threshold starts the module. -/
theorem test_power_on : out .pwrEnRise { blk := { State.reset.blk with pw := { vin := 4800 } } } (fun b => b.pw.phase) =
    some .starting := by decide +kernel

/-- The reset queue is empty and the module in Standby. -/
theorem test_reset : State.reset.pending = [] ∧ State.reset.blk.pw.phase = .standby := by decide +kernel

/-- A step runs the command at the front. -/
theorem test_step : (match step { st 1 2 with pending := [.add tile0 (regs 3 1 2 0), .stepClose] } with
    | .next t => some (s3 t.blk, t.pending)
    | _ => none) = some (3, [.stepClose]) := by decide +kernel



/-! ### States and operands that meet the hypotheses of the statements -/

theorem witness_executes : Up (st 1 2) ∧ Executes (st 1 2) tile0 0 ∧ Executes (st 1 2) rck0 0 ∧ Executes (st 1 2) drk0 0 :=
  ⟨rfl, ⟨rfl, by decide +kernel, by decide +kernel⟩, ⟨rfl, by decide +kernel, by decide +kernel⟩,
    ⟨rfl, by decide +kernel, by decide +kernel⟩⟩

/-- IntegerAndShiftResults, MultiplyDivideResults, ScalarFrame: a word of each form; a divisor and its absence. -/
theorem witness_integer_words : legalInt false (regs 3 1 2 0) = true ∧ legalMul (regs 31 31 31 0 ||| 0x20000#52) = true ∧
    legalDiv (regs 3 1 2 0 ||| 0x30000#52) = true ∧ legalMul (regs 3 1 2 0 ||| 0x30000#52) = false ∧
    sreg (img (block 1 2) 0 tile0) 2 ≠ 0 ∧ sreg (img (block 1 0) 0 tile0) 2 = 0 ∧
    legalInt false (regs 3 1 2 0 ||| 0x40000#52) = false := by decide +kernel

/-- LoadAndStore, StoreFrame. -/
theorem witness_memory : legalMem tile0 (regs 3 1 0 0 ||| 0xC000000000#52) = true ∧
    badByte (block 0x600000 0) 0 0x600000 8 = none ∧
    missing (block 0x600000 0) 0 (unit1 0x600000 0) 0x600000 8 = false ∧ faModule 0x600000 = (block 0 0).geo.own ∧
    accessDone (unit1 0x600000 0) = true ∧ (unit1 0x600000 0).rbuf = [] ∧
    storeMet (block 0x600000 0) 0 0x600000 8 = none ∧
    whereIs (block 0x600000 0) 0 0x600000 = .mem 0x600000 := by decide +kernel

theorem witness_memory_read : ∃ b1, meetRead (block 0x600000 0) 0 tile0 0x600000 8 = .ok b1 := ⟨_, rfl⟩

/-- A page's last aligned 32 bytes, for file t. -/
theorem witness_memory_edge : legalMem tile0 (regs 0 1 0 0 ||| 0x2C000000000#52) = true ∧
    badByte (block 0 0) 0 0x7FFFE0 32 = none ∧ badByte (block 0 0) 0 0x7FFFE1 32 = some 0x800000 := by decide +kernel

/-- BranchAndJump, Binary64Results. -/
theorem witness_control_words : legalBranch (regs 0 1 2 0 ||| 0x1000000000#52) = true ∧ legalJal (regs 1 0 0 0) = true ∧
    legalJalr (regs 1 1 0 0) = true ∧ legalF2 (regs 1 2 3 0) = true ∧ legalFsqrt (regs 1 2 0 0) = true ∧
    legalFma (regs 1 2 3 4) = true ∧ legalFmm (regs 1 2 3 0 ||| 0xC0000000#52) = true ∧
    legalFcvt (regs 1 2 0 0) = true := by decide +kernel

def handling : UnitImg := { unit1 1 2 with handler := true, xpc := 0x400010 }

/-- SystemRegisters. -/
theorem witness_system : legalSysr (regs 3 0 0 0 ||| 0x024#52) = true ∧ legalSysw (regs 0 1 0 0 ||| 0x011#52) = true ∧
    legalSysw (regs 0 1 0 0 ||| 0x020#52) = true ∧ legalXret (regs 0 1 0 0 ||| 0x025#52) = true ∧
    (img (setImg (block 1 2) 0 tile0 handling) 0 tile0).handler = true := by decide +kernel

/-- Exceptions. -/
theorem witness_exception : (unit1 1 2).xvec ≠ 0 ∧ (unit1 1 2).handler = false ∧ (unit1 1 2).builtin = false ∧
    handling.handler = true ∧ (ctxOf (block 1 2) 0).confidential = false := by decide +kernel

/-- EveryCommandCompletes. -/
theorem witness_effect_alone : (block 1 2).running ≠ none ∧ waiters (block 1 2) = [] ∧ (block 1 2).draining = false ∧
    (block 1 2).chip.stepOnce = none := by decide +kernel

/-- ShortVectorResults, ShortVectorMemoryAndReduction: formats of code 0 and 5, and VL 0. -/
theorem witness_short_vector : legalVsetvl (regs 3 1 0 0 ||| 0x50000000#52) = true ∧ legalV2 (regs 3 1 2 0) = true ∧
    legalVfma (regs 3 1 2 4) = true ∧ legalVmm (regs 3 1 2 0) = true ∧ legalVld (regs 3 1 0 0 ||| 0x2000000#52) = true ∧
    legalVst (regs 3 1 0 0) = true ∧ legalVred (regs 3 1 0 0 ||| 0x2000000#52) = true ∧
    badByte (block 0x600000 0) 0 0x600000 16 = none ∧
    storeMet (svuTouch (block 0x600000 0) tile0) 0 0x600000 16 = none ∧
    missing (block 0x600000 0) 0 (unit1 0x600000 0) 0x600000 16 = false := by decide +kernel

theorem witness_vector_read : ∃ b1, meetRead (svuTouch (block 0x600000 0) tile0) 0 tile0 0x600000 16 = .ok b1 := ⟨_, rfl⟩

/-! Tensor words: t1, t2 and t3 describe one sett each in page 3, in binary64. -/

def unitT : UnitImg :=
  { unit1 0x600000 0 with
    t := (Vector.replicate 16 0).set 1 0x600000 |>.set 2 0x601000 |>.set 3 0x602000 }

def stT : State := { blk := setImg (block 0 0) 0 tile0 unitT }

def tword (a b c : Nat) : Ops := BitVec.ofNat 52 (a * 2 ^ 48 + b * 2 ^ 44 + c * 2 ^ 40)

/-- What TensorReady asks, as a check. -/
def ready (b : Block) (op : Nat) (o : Ops) (n : Nat) (rs ws : List (U64 × Nat)) : Bool :=
  (lowestBad b 0 (rs ++ ws)).isNone && !(rs.any fun r => missing b 0 (img b 0 tile0) r.1 r.2) &&
    !(meetReads b 0 tile0 rs).faulted && (checked tile0 op o n (meetReads b 0 tile0 rs)).2.1.isNone &&
      (checked tile0 op o n (meetReads b 0 tile0 rs)).2.2.isNone

theorem ready_iff (b : Block) (op : Nat) (o : Ops) (n : Nat) (rs ws : List (U64 × Nat)) (h : ready b op o n rs ws = true) :
    TensorReady b 0 tile0 op o n rs ws := by
  simpa [ready, TensorReady, Prod.ext_iff, and_assoc] using h


def srcR (o : Ops) : List (U64 × Nat) := sourceRanges stT.blk 0 unitT (tsOf unitT o).1
def dstR (o : Ops) : List (U64 × Nat) := destRanges stT.blk 0 unitT (tdOf unitT o).1
def oneR (o : Ops) : List (U64 × Nat) := readsOf stT.blk tile0 o (wmode o) [tsOf] 0 unitT
def twoR (o : Ops) : List (U64 × Nat) := readsOf stT.blk tile0 o (wmode o) [tsOf, tbOf] 0 unitT

theorem witness_tensor_executes : Executes stT tile0 0 := ⟨rfl, by decide +kernel, by decide +kernel⟩

/-- LaneInstructionsComplete: one sett to another, and a roll without a scale record. -/
theorem witness_lane : legalCvt (tword 2 1 0) = true ∧ ready stT.blk 1 (tword 2 1 0) 0 (oneR (tword 2 1 0)) (dstR (tword 2 1 0)) = true ∧
    legalRoll (tword 2 0 0 ||| 8#52) = true ∧ (rollRecord unitT (tword 2 0 0 ||| 8#52)).1 = 0 ∧
    ready stT.blk 1 (tword 2 0 0 ||| 8#52) 0 [] [] = true ∧ legalEwu (tword 2 1 0) = true ∧ bits (tword 2 1 0) 3 5 ≠ 0x11 ∧
    ready stT.blk 2 (tword 2 1 0) 0 (ewuReads stT.blk tile0 (tword 2 1 0) 0 unitT) (dstR (tword 2 1 0)) = true := by
  decide +kernel

theorem witness_reduction : legalTred (tword 2 1 0) = true ∧ bits (tword 2 1 0) 3 3 ≠ 6 ∧
    ready stT.blk 4 (tword 2 1 0) (tredGroups (tword 2 1 0) unitT) (oneR (tword 2 1 0)) (dstR (tword 2 1 0)) = true := by
  decide +kernel

/-- EWB reads two sources. -/
theorem witness_ewb : legalEwb (tword 2 1 3) = true ∧
    ready stT.blk 3 (tword 2 1 3) 0 (twoR (tword 2 1 3)) (dstR (tword 2 1 3)) = true := by decide +kernel

/-- CopyInstructionsComplete: every word is legal; a heap record of zeros leaves room for nothing. -/
theorem witness_copy_words : legalMskp (tword 0 1 0) = true ∧ legalMskx (tword 2 1 0) = true ∧ legalCopy (tword 2 1 0) = true ∧
    legalList (tword 2 1 0) = true ∧ legalScta (tword 2 1 0) = true ∧ legalHpush (tword 0 1 0) = true ∧
    legalHpop (tword 2 0 0) = true := by decide +kernel

theorem witness_copies (b : Block := stT.blk) (o : Ops := tword 2 1 0) : b = stT.blk → o = tword 2 1 0 →
    ready b 7 o 0 (txpReads b tile0 o 0 unitT) (copyRanges b o 0 unitT) = true ∧
    ready b 8 o 0 (copyReads b tile0 o 0 unitT) (copyRanges b o 0 unitT) = true ∧
    ready b 9 o 0 (gthReads b tile0 o 0 unitT) (listWrites b o 0 unitT) = true ∧
    ready b 10 o 0 (sctReads b tile0 o 0 unitT) (listWrites b o 0 unitT) = true := by
  rintro rfl rfl
  decide +kernel

theorem witness_scta : let b := stT.blk
    let o := tword 2 1 0
    seamsLack unitT (sctaNeed b 0 tile0 unitT o) = false ∧
    ready b 11 o 0 (sctaReads b tile0 o 0 unitT) (rangesOfList o unitT (destRanges b 0 unitT (tdOf unitT o).1)) = true := by
  decide +kernel

/-- A heap record at offset 0 of the tile's SRAM: base 0x610000, limit 0x611000, top 0x610800. -/
def heaped : Block :=
  { stT.blk with mem := [(sramKey 0 0 2, 0x61), (sramKey 0 0 9, 0x10), (sramKey 0 0 10, 0x61), (sramKey 0 0 17, 8), (sramKey 0 0 18, 0x61)] }

/-- A word whose packed mask stands where s1 says. -/
def packed (a : Nat) : Ops := tword a 1 0 ||| 0x800000000#52

theorem witness_masks : let b := stT.blk
    legalMskp (packed 0) = true ∧ legalMskx (packed 2) = true ∧
    ready b 5 (packed 0) 0 (srcR (packed 0)) [packRange unitT (packed 0) (tsOf unitT (packed 0)).1] = true ∧
    ready b 6 (packed 2) 0 (readsOf b tile0 (packed 2) (mskxMode (packed 2)) [tsOf] 0 unitT ++
      [packRange unitT (packed 2) (tsOf unitT (packed 2)).1]) (dstR (packed 2)) = true := by decide +kernel

theorem witness_heap : let b := heaped
    let o := tword 0 1 0
    let p := tword 2 0 0
    let ts := (tsOf unitT o).1
    let td := (tdOf unitT p).1
    let h := readHeap b 0 tile0 unitT o
    h.base = 0x610000 ∧ h.top = 0x610800 ∧ h.limit = 0x611000 ∧
    h.top.toNat + heapSize b 0 unitT ts ≤ h.limit.toNat ∧ h.base.toNat + heapSize b 0 unitT td ≤ h.top.toNat ∧
    ready b 12 o 0 (heapRecord b tile0 unitT o ++ recordRange ts ++ (viewRanges ts ++ heapArray b 0 unitT ts))
      [(h.top, heapSize b 0 unitT ts)] = true ∧
    ready b 13 p 0 (heapRecord b tile0 unitT p ++ recordRange td ++
      ((h.top - BitVec.ofNat 64 (heapSize b 0 unitT td), heapSize b 0 unitT td) :: mapReads b tile0 td))
      (viewRanges td ++ heapArray b 0 unitT td) = true := by decide +kernel

/-- TallyInstructionsComplete: opening a handle that is free needs a seam for each element. -/
theorem witness_tally : legalMma (tword 2 1 3) = true ∧ seamsLack unitT (mmaNeed unitT (tword 2 1 3)) = false ∧
    legalTieOpen (tword 2 0 0) = true ∧ legalTieAdd (tword 0 1 0 ||| 1#52) = true ∧
    legalTiex (tword 0 0 0) = true ∧ seamsLack unitT (elemTotal (tdOf unitT (tword 2 0 0)).1) = false ∧
    (tlook unitT.ties 0).isNone = true ∧ ready stT.blk 14 (tword 2 0 0) 0 [] [] = true ∧
    ready stT.blk 15 (tword 0 0 0) 0 [] [] = true := by decide +kernel

theorem witness_mma : let b := stT.blk
    let o := tword 2 1 3
    let rs := sourceRanges b 0 unitT (tsOf unitT o).1 ++ sourceRanges b 0 unitT (tbOf unitT o).1 ++
      destReads b 0 tile0 unitT (tdOf unitT o).1 (mmaMode o)
    bit o 4 = false ∧ bits o 5 2 ≠ 3 ∧ ready b 0 o ((mmaArray tile0 o).blocks unitT) rs (dstR o) = true := by decide +kernel

/-! Remote operations: s1 = s2 = a local address; the fields [31:27] name s0. -/

/-- RemoteOperationsStart. -/
theorem witness_remote : legalPut (regs 0 1 1 2) = true ∧ legalPuts (regs 2 1 1 2) = true ∧ legalGet (regs 0 1 1 2) = true ∧
    legalRadd (regs 0 1 1 2 ||| 5#52) = true ∧ portFull (unit1 0x600000 8) = false ∧
    badByte (block 0x600000 8) 0 0x600000 8 = none := by decide +kernel

theorem witness_remote_ready : ∃ b1 x, RemoteReady (block 0x600000 8) 0 tile0 [(0x600000, 8)] (0x600000, 8) b1 x :=
  ⟨_, _, by decide +kernel, by decide +kernel, rfl⟩

def waiting (k : WaitKind) (w : U64) (u : UnitId) : Block :=
  setImg (block 0x600000 8) 0 u { unit1 0x600000 8 with run := .waiting k w }

/-- CounterWaits: met at once, not met, and a tile that waits. -/
theorem witness_waitc : legalWaitc (regs 3 1 2 0 ||| 2#52) = true ∧ legalWaitc (regs 3 1 2 0) = true ∧
    badByte (block 0x600000 8) 0 (waitcAddr (block 0x600000 8) (unit1 0x600000 8) (regs 3 1 2 0)).1 8 = none ∧
    (waitcLimit (unit1 0x600000 8) (regs 3 1 2 0)).1 = 0 ∧ (waitcLimit (unit1 0x600000 8) (regs 3 1 2 1)).1 ≠ 0 ∧
    waitCtx (waiting .counter 5 tile0) tile0 = some (0, .counter, 5) := by decide +kernel

/-- FenceCollectiveAndRecordFields. -/
theorem witness_fence : legalFence (regs 3 1 0 0 ||| 1#52) = true ∧
    scopeOpen (block 0 0) 0 tile0 (fun _ => true) = false ∧ legalColl (regs 3 1 0 0) = true ∧
    badByte (block 0x600000 0) 0 (collBlock (block 0x600000 0) (unit1 0x600000 0) (regs 3 1 0 0)).1 64 = none ∧
    (img (block 0 0) 0 (engineOf tile0)).colls.length < 64 ∧ legalLgf (regs 0 1 0 0 ||| 0x1F#52) = true := by decide +kernel

/-! Closing a step: the one tile of the step waits in STEPEND; a step that waits for its ring, its partner. -/

def atStepEnd : Block := waiting .stepEnd (mkWord 0x1C 0x01 0) tile0

def closing (p : ClosePhase) : Block := setCtx (block 0 0) 0 { ctxOf (block 0 0) 0 with phase := p }

/-- StepsClose. -/
theorem witness_step_close : legalStepend (regs 0 1 0 0) = true ∧
    stepReady (setImg (setImg atStepEnd 0 rck0 {}) 0 drk0 {}) 0 = true ∧ (ctxOf atStepEnd 0).phase = .none ∧
    (ctxOf (closing .ringWait) 0).phase = .ringWait ∧ (ctxOf (closing .pairWait) 0).phase = .pairWait ∧
    (closing .pairWait).running = some 0 := by decide +kernel

/-- DerrickSubmitAndPoll: a region with a Derrick and one without. -/
theorem witness_derrick_submit : legalDsub (regs 3 1 2 0) = true ∧ legalDpoll (regs 3 1 0 0) = true ∧
    (block 0 0).geo.derricks.getLsbD (regionOp 0).1 = true ∧ (block 0 0).geo.derricks.getLsbD (regionOp 5).1 = false ∧
    ((dsubRanges (block 0x600000 64) (unit1 0x600000 64) (regs 3 1 2 0)).filterMap fun r =>
      badByte (block 0x600000 64) 0 r.1 r.2) = [] ∧
    (drkOf (block 0 0) 0).queue.length + (drkOf (block 0 0) 0).subs.length < 256 := by decide +kernel


/-! Rounds of a Derrick. -/

/-- One batch: a round record of eight words of zeros for round 0 of step 0. -/
def batch0 : Batch :=
  { ctx := 0, step := 0, tile := 0, sub := 0, place := 0, len := 88, round := 0, specs := [(0, List.replicate 8 0)] }

def spec0 : RoundRec :=
  { mode := 0, cut := false, tape := false, warm := false, iters := 1, batches := 1, deadline := 5, h := 0, first := 0,
    nenv := 0, counter := 0x600000, inc := 1, tapeBase := 0, tapeLimit := 0 }

/-- Derrick 0 in a round that has applied its batches, and set up its solves, or not yet. -/
def atRound (a p : Bool) : State :=
  { blk := setRound (block 0 0) 0 0 fun x =>
      { x with cur := some { round := 0, spec := spec0, batches := [batch0], applied := a, prepped := p } } }

def sub0 : DrkSub := { ctx := 0, step := 0, tile := 0, sub := 0, addr := 0x600000, len := 64, counter := 0x601000 }

/-- A Derrick that holds a batch of its next round, and one with a submission to copy. -/
def withBatch : Block := setDrk (block 0 0) 0 { halt := false, queue := [batch0] }
def withSub (q : DrkSub) : Block := setDrk (block 0 0) 0 { halt := false, subs := [q] }

/-- DerrickRounds: a round that is ready, none that is, with a time to wait and without; a deadline passed and not. -/
theorem witness_derrick_next : legalDnext (regs 3 0 0 2) = true ∧ Executes { blk := withBatch } drk0 0 ∧
    (readyRound withBatch 0 0).isSome = true ∧ (readyRound (block 1 2) 0 0).isSome = false ∧
    sreg (img (block 1 2) 0 drk0) 2 ≠ 0 ∧ sreg (img (block 1 2) 0 drk0) 0 = 0 :=
  ⟨by decide +kernel, ⟨rfl, by decide +kernel, by decide +kernel⟩, by decide +kernel, by decide +kernel,
    by decide +kernel, by decide +kernel⟩

theorem witness_derrick_executes (a p : Bool) : Executes (atRound a p) drk0 0 := by
  refine ⟨rfl, ?_, ?_⟩ <;> revert a p <;> decide +kernel

theorem witness_derrick_round : legalDstat (regs 3 0 0 0) = true ∧ legalNone 0 = true ∧ legalDfin (regs 0 1 0 0) = true ∧
    (curRound (atRound false false).blk 0 0).map (·.applied) = some false ∧
    (curRound (atRound true false).blk 0 0).map (fun q => (q.applied, q.prepped)) = some (true, false) ∧
    (curRound (atRound true true).blk 0 0).map (fun q => (q.prepped, q.spec.counter)) = some (true, 0x600000) ∧
    (drkOf (atRound true true).blk 0).storeErrs = [] ∧
    (match readBatches 0 (atRound false false).blk (sortBatches [batch0]) with
     | (b1, some recs) => !(recs.foldl (applyRec 0 0) { d := drkOf b1 0, b := b1 }).fault
     | _ => false) = true ∧
    (readRanges (atRound true false).blk
      (prepRanges (solveList (drkOf (atRound true false).blk 0) 0 spec0).1 none)).2 = true ∧
    (tapeSide (atRound true true).blk 0 0 { round := 0, spec := spec0, batches := [batch0] } 0).good = true ∧
    portFull (img (atRound true true).blk 0 drk0) = false := by decide +kernel

/-- DerrickRounds, the timeout and the copying of a submission: into a round not begun, one begun, an empty batch. -/
theorem witness_derrick_ends : waitCtx (waiting .round (mkWord 0x18 0x10 (regs 3 0 0 2)) drk0) drk0 =
      some (0, .round, mkWord 0x18 0x10 (regs 3 0 0 2)) ∧
    (drkOf (withSub sub0) 0).subs = [sub0] ∧ freePlace (drkOf (withSub sub0) 0) = some 0 ∧ sub0.counter ≠ 0 ∧
    (drkOf (withSub { sub0 with len := 0, counter := 0 }) 0).subs = [{ sub0 with len := 0, counter := 0 }] ∧
    (match meetRead (withSub sub0) 0 tile0 sub0.addr sub0.len with | .ok _ => true | _ => false) = true ∧
    (tget (drkOf (withSub sub0) 0).ctx {} 0).next = 0 ∧ (atRound true true).blk.running = some 0 ∧ (curRound (atRound true true).blk 0 0).isSome = true := by decide +kernel

/-! Weight updates: a shard record of no elements in stack 0; the flags of its group. -/

/-- The context owns pages 2 and 3: page 3 holds a shard record of group 0; the group's flags are `x`. -/
def grouped (x : Byte) : State :=
  { blk := wrKeys (wrKeys (setCtx (block 0x600000 0) 0 { ctxOf (block 0 0) 0 with pages := [2, 3] }) 0x410100 [x])
      0x600010 (leBytes 8 0x601000) }

/-- UpdatesAndNorms: groups live, frozen, in the norm, and not valid. -/
theorem witness_updates (x : Byte) : Executes (grouped x) rck0 0 := by
  refine ⟨rfl, ?_, ?_⟩ <;> revert x <;> decide +kernel

theorem witness_update_groups : let g (x : Byte) := readGrp (grouped x).blk (ctxOf (grouped x).blk 0) 0
    grpValid (g 0) = false ∧ (grpValid (g 2) || grpFrozen (g 3)) = true ∧ grpValid (g 5) = true ∧
    grpFrozen (g 5) = false ∧ grpNorm (g 5) = true ∧ grpNorm (g 1) = false := by decide +kernel

theorem witness_update_shard : let b := (grouped 1).blk
    let i := img b 0 rck0
    let o := regs 0 1 0 0
    let h := readShard b 0x600000
    let g := readGrp b (ctxOf b 0) h.group
    let sp := spanOf b i o h.n
    legalUpd o = true ∧ faLocal (recOp b (sreg i (fa o))).1 = 0x600000 ∧ lowBad b 0 0 0x600000 128 = none ∧
    ((updFetches h false).any fun q => missing b 0 i q.1 q.2) = false ∧ (rckOf b 0).storeBad = false ∧
    (sp.first + sp.count == h.n && sp.count != 0) = false ∧
    (∀ x, leastAddr (shardBad b 0 0 i h (grpWidth g) x) = none ∧
      (readsMet b (updReads b 0 0 0x600000 h g sp x)).2 = none) := by decide +kernel

theorem witness_norms : legalNormPartial (regs 3 1 0 0 ||| 0x8000000#52) = true ∧
    legalNormTotal (regs 3 1 0 0 ||| 0x8000001#52) = true ∧ badByte (grouped 5).blk 0 0x600000 64 = none ∧
    (recOp (grouped 5).blk (sreg (img (grouped 5).blk 0 rck0) (fe (regs 3 1 0 0 ||| 0x8000000#52)))).1 = 0x600000 ∧
    lowBad (grouped 5).blk 0 0 (readShard (grouped 5).blk 0x600000).seams 0 = none ∧
    whereIs (grouped 5).blk 0 0x600000 = .mem 0x600000 := by decide +kernel

/-- The reads of both forms meet nothing that stops them; groups 5 and 1 are in the norm and out of it. -/
theorem witness_norm_reads (x : Byte) (hx : x = 5 ∨ x = 1) : let b := (grouped x).blk
    let i := img b 0 rck0
    let o := regs 3 1 0 0 ||| 0x8000000#52
    let t := recOp b (sreg i (fe o))
    let h := readShard b 0x600000
    let g := readGrp b (ctxOf b 0) h.group
    let sp := spanOf b i o h.n
    leastAddr (shardBad b 0 0 i h (grpWidth g) (grpRule g != 2) ++ (badByte b 0 t.1 64).toList) = none ∧
    (readsMet b (localReads [(0x600000, 128), (grpBase (ctxOf b 0) h.group, 128), (h.seams + 64 * sp.first, 64 * sp.count)] ++
      slotReads b 0 t.1)).2 = none ∧
    (readsMet b (slotReads b 0 t.1 ++ localReads [(utBase (ctxOf b 0), 64)])).2 = none := by
  rcases hx with rfl | rfl <;> decide +kernel

/-! Collectives. -/

/-- Engine 0 runs its built-in program with one request of kind `n` at stage `g`; for a program of its own, at its end. -/
def collReq (n g : Nat) : CollReq := { seq := 0, kind := n, counter := 0x600000, args := [0, 0, 0, 0, 0, 0], stage := g }

def engaged (n g : Nat) (r : RunSt) (ret : Option U64) : UnitImg :=
  { run := r, builtin := true, colls := [collReq n g], ret := ret, pc := 0x400000 }

def collecting (n g : Nat) (r : RunSt) (ret : Option U64) : Block :=
  setImg { block 0x600000 8 with pages := [(0, 0), (2, 0), (3, 0)] } 0 (.engine 0) (engaged n g r ret)

/-- CollectivesAdvance: every kind, begun and not begun; the end of a program; a kind that has no meaning. -/
theorem witness_collectives : ∀ n < 6, ∀ g < 3, ∃ q,
    frontColl (collecting n g .halted none) 0 (fun m => decide (m = n)) = some (0, engaged n g .halted none, q) ∧
      q.stage = g := by
  intro n hn g hg
  refine ⟨collReq n g, ?_, rfl⟩
  revert n g
  decide +kernel

theorem witness_collective_words : rsFmt (collReq 2 0) ≤ 6 ∧ argNat (collReq 2 0) 3 / 4 % 4 = 0 ∧
    argNat (collReq 2 0) 3 / 2 ^ 16 = 0 ∧
    badByte (collecting 2 0 .halted none) 0 (argLocal (collecting 2 0 .halted none) (collReq 2 0) 0) 0 = none ∧
    axisExtent (collecting 2 0 .halted none) 0 * argNat (collReq 2 0) 2 = 0 ∧
    argNat (collReq 0 0) 0 % 8 = 0 ∧ argNat (collReq 0 0) 0 < (ctxOf (collecting 0 0 .halted none) 0).imgSize ∧
    (engaged 0 1 .running (some 0x400000)).ret = some (engaged 0 1 .running (some 0x400000)).pc ∧
    (frontColl (collecting 0 1 .running (some 0x400000)) 0 (· == 0)).isSome = true := by decide +kernel


/-! Requests. -/

def req0 (e : U32) (a : U64) : Request := { src := 1, tag := 5, epoch := e, addr := a, op := .put [1, 2, 3, 4, 5, 6, 7, 8] }

def fencedBlock : Block := { block 0 0 with fab := { (block 0 0).fab with fenced := true } }

/-- RequestsJudgedInOrder: a fenced target; no context of the job; an old and a later generation; no page; a window of a
faulted tile, of a context that does not run, of one that runs; memory. -/
theorem witness_judged : judge fencedBlock (req0 0x00100000 0x600000) = .refuse 7 ∧
    ctxOfJob (block 0 0) 5 = none ∧ ctxOfJob (block 0 0) 1 = some 0 ∧
    judge (setCtx (block 0 0) 0 { ctxOf (block 0 0) 0 with epoch := 0x00100005 }) (req0 0x00100004 0x600000) = .refuse 1 ∧
    judge (block 0 0) (req0 0x00100001 0x600000) = .refuse 2 ∧ judge (block 0 0) (req0 0x00100000 0xA00000) = .refuse 4 ∧
    judge (setTileHw (block 0 0) 0 { faulted := true }) (req0 0x00100000 0x100000000000) = .refuse 5 ∧
    judge { block 0 0 with running := none } (req0 0x00100000 0x100000000000) = .hold ∧
    judge (block 0 0) (req0 0x00100000 0x100000000000) = .perform 0 (sramKey 0 0 0) ∧
    judge (block 0 0) (req0 0x00100000 0x600000) = .perform 0 0x600000 := by decide +kernel

def openReq : OpenReq := { unit := 0, ctx := 0, op := 0, fill := 0, req := req0 0x00100000 0x2000000600000 }

def opened : Block := { block 0 0 with fab := { (block 0 0).fab with reqs := [(5, openReq)], quarantine := [(6, 0)] } }

def answered (e : U32) : Response := { dst := 0, src := 1, tag := 5, epoch := e, status := 1, data := [] }

/-- RequestsTakenAndEnded: a request of another module, an open one that its response ends or does not, a tag at rest. -/
theorem witness_taken : arrives (block 0 0) (req0 0x00100000 0x600000) = true ∧ jobOf (req0 0x00100000 0).epoch ≠ 0 ∧
    judge (block 0 0) (req0 0x00100000 0x600000) = .perform 0 0x600000 ∧
    judge { block 0 0 with running := none } (req0 0x00100000 0x100000000000) = .hold ∧
    judge fencedBlock (req0 0x00100000 0x600000) = .refuse 7 ∧ arrives fencedBlock (req0 0x00100000 0x600000) = true ∧
    tlook opened.fab.reqs 5 = some openReq ∧ (answered 0x00100000).epoch = openReq.req.epoch ∧
    (answered 0x00100000).epoch = (ctxOf opened 0).epoch ∧ (answered 0x00100001).epoch ≠ openReq.req.epoch ∧
    tlook opened.fab.reqs 7 = none ∧ tlook opened.fab.quarantine 6 = some 0 ∧ opened.running = some 0 := by decide +kernel

/-! Links. -/

def linked (l : Link) : Block := setLink (block 0 0) 0 l

/-- FlitsReceived: words that hold no error and words that cannot be corrected, on a usable link; a flit that waits. -/
theorem witness_flits : linkUsable (linked { st := 7 }) 0 = true ∧ linkUsable (linked { st := 8 }) 0 = true ∧
    decodeWords (fromWire false 15 (List.replicate 9 [])) = some (List.replicate 288 0, 0) ∧
    decodeWords (fromWire false 15 ([1] :: [1] :: List.replicate 7 [])) = none ∧
    0 < (linkOf (linked { st := 7, queue := [⟨0, readFlit [], none⟩] }) 0).queue.length := by decide +kernel

/-- Whether the flit is authentic, no rule of the model settles: both clauses are met, each where its condition is. -/
theorem witness_flit_cases (l : Link) (cw x : List Byte) :
    Config.gcmOpenShort (l.rxKey.take 32) (l.rxKey.drop 32 ++ leBytes 8 l.rxNext) cw x = none ∨
      ∃ content, Config.gcmOpenShort (l.rxKey.take 32) (l.rxKey.drop 32 ++ leBytes 8 l.rxNext) cw x = some content := by
  cases Config.gcmOpenShort (l.rxKey.take 32) (l.rxKey.drop 32 ++ leBytes 8 l.rxNext) cw x with
  | none => exact .inl rfl
  | some c => exact .inr ⟨c, rfl⟩

/-- LinkTrainingAndWidth: links in each state of training, the last lane bad alone, and an identity that fits or not. -/
theorem witness_training : (∀ n : Fin 9, (linkOf (linked { st := BitVec.ofNat 4 n.val }) 0).st = BitVec.ofNat 4 n.val) ∧
    (∀ i < 8, i ≠ 7 → ([0, 0, 0, 0, 0, 0, 0, 2148, 0] : List Nat).getD i 0 < 2148) ∧
    identOk (linked { st := 5 }) 0 1 0 1 0 = true ∧ identOk (linked { st := 5 }) 0 1 0 0 0 = false ∧
    (linkOf (linked { st := 7, replays := 8 }) 0).replays = 8 ∧
    (linkOf (linked { st := 7, keyed := true }) 0).rekey = false ∧ (linkOf (linked { st := 1 }) 0).disable = false := by decide +kernel

def remapping : Block :=
  { block 0 0 with
    geo := { (block 0 0).geo with remap := true }
    torus := { (block 0 0).torus with phases := [[0, 1, 2, 3], [1, 0, 2, 3]], rmCounter := 0x600000 } }

theorem witness_width : (linkOf (linked { st := 7 }) 0).narrowEn = true ∧ (linkOf (linked { st := 7 }) 0).queue = [] ∧
    (linkOf (linked { st := 8, queue := [⟨0, readFlit [], none⟩] }) 0).queue ≠ [] ∧
    remapValue (wrKeys remapping 0x600000 [1]) % 2 ≠ remapping.house.phase.toNat ∧ switchQuiet remapping = true ∧
    switchQuiet { remapping with fab := opened.fab } = false := by decide +kernel

/-- LinkKeyAgreement: a link in KEY, either end; what the certificates decide is opaque and goes either way. -/
theorem witness_link_key : (linkOf (linked { st := 6, peer := 1 }) 0).st = 6 ∧
    ((linked { st := 6, peer := 1 }).geo.own.toNat < (linkOf (linked { st := 6, peer := 1 }) 0).peer.toNat) ∧
    (keySign (linked { st := 6 }) true []).isSome = true := by decide +kernel

/-! Memory controllers and clocks. -/

/-- MemoryControllersAndClocks. -/
theorem witness_controllers : (block 0 0).geo.stackMask.getLsbD 0 = true ∧ (mcOf (block 0 0) 0).scrubEn = true ∧
    (mcOf (block 0 0) 0).selfRefresh = false ∧ popcount 16 (block 0 0).geo.capBuses.toNat ≠ 0 ∧
    tilePresent (block 0 0) 0 = true ∧ clocked (block 0 0) 0 = true ∧ (tileHw (block 0 0) 0).scrub = true ∧
    gated (block 0 0) 0 = false ∧ (tileHw (block 0 0) 0).faulted = false ∧ stackUsed (block 0 0) 0 = false ∧
    (mcOf (setMc (block 0 0) 0 { selfRefresh := true }) 0).selfRefresh = true ∧
    (let m := mcOf (setMc (block 0 0) 0 { level := 2 }) 0
     bandLevel m m.band < m.level.toNat) ∧
    tget ({ block 0 0 with pw := { (block 0 0).pw with regionPll := [(0, 1)] } }).pw.regionPll 0 0 = 1 ∧
    tget (block 0 0).pw.regionPll 0 0 ≠ 0 ∧ (block 0 0).geo.capBuses.getLsbD 0 = true ∧
    (tileHw (block 0 0) 0).svuHold = false ∧ (tileHw (block 0 0) 0).svuDown = false := by decide +kernel

/-! Houses: modules 0, 1 and 2 in a house of four places; module 0 is this one, keeper or not. -/

def housed (keeper : Bool) : Block :=
  { block 0 0 with
    geo := { (block 0 0).geo with keeper := if keeper then 0 else 1 }
    torus := { (block 0 0).torus with valid := true, ext := [4, 1, 1, 1], houseSize := 4, places := [some 0, some 1, some 2, none] }
    house := { (block 0 0).house with isKeeper := keeper, isFirst := keeper } }

def said (n : Nat) : HouseMsg :=
  { kind := n, house := 0, term := 1, epoch := 0x00100001, subject := 2, seq := 1, live := 7, dead := 0,
    body := List.replicate 32 0 }

/-- Module 1's slot holds a message. -/
def heard (b : Block) (x : HouseMsg) : State := { blk := wrKeys b 0xFFFA00040 (hmBytes x) }

def got (b : Block) (x : HouseMsg) : Option (HouseMsg × Block) := match takeMsg (heard b x).blk x.kind 1 with
  | (some y, d) => some (y, d)
  | _ => none

/-- HouseBeats, HouseReportsAndSilence, GenerationRaise, FragmentsAndAdmission: each message is received. -/
theorem witness_received : ∀ (keeper : Bool) (n : Fin 14),
    aboveStandby (heard (housed keeper) (said n.val)).blk.pw.phase = true ∧
      (takeMsg (heard (housed keeper) (said n.val)).blk n.val 1).1 = some (said n.val) := by decide +kernel

/-- What is asked of the block a message leaves. -/
def after1 (b : Block) (x : HouseMsg) (f : Block → Bool) : Bool := match got b x with | some r => f r.2 | none => false

def reported : Block := wrKeys (setCtx (housed false) 0 { ctxOf (block 0 0) 0 with pages := [2, 3] }) 0x400000 [1]

/-- HouseBeats and HouseReportsAndSilence: a house PUT, a report to send, a probe that is open. -/
theorem witness_house : follows (housed false) 1 (said 1) = true ∧ follows (housed true) 1 { said 1 with term := 0 } = false ∧
    jobOf (req0 0 0xFFFA00040).epoch = 0 ∧ faModule (req0 0 0xFFFA00040).addr = (housed true).geo.own ∧
    resident reported 0 = true ∧ (readOwn reported (reportBase reported 0) 16).1.2 = none ∧
    tget reported.house.seenRpt 0 0 ≠ leNat ((readOwn reported (reportBase reported 0) 16).2.take 8) ∧
    ({ housed true with house := { (housed true).house with probes := [(2, 1)] } }).house.probes = [(2, 1)] ∧
    (otherMembers (housed true)).contains 1 = true ∧ turnOf (housed false) (ownNo (housed false)) = some 1 ∧
    (housed false).fab.fenced = false := by decide +kernel

def raising : Block := { housed true with house := { (housed true).house with raise := some (0x00100001, [2]) } }

/-- GenerationRaise. -/
theorem witness_raise : after1 (housed false) (said 7) (fun b => obeys b 1 && decide (b.torus.epoch.toNat % 2 ^ 20 < 1)) = true ∧
    after1 (housed false) (said 9) (fun b => obeys b 1 && decide (b.torus.epoch.toNat % 2 ^ 20 < 1)) = true ∧
    after1 raising (said 8) (fun b => b.house.raise == some (0x00100001, [2]) && b.house.isKeeper && (awaited b).contains 1) =
      true ∧ (awaited raising).contains 1 = true := by decide +kernel

/-- A frame header that claims no payload; a signature record less its last 32 bytes. -/
def frame0 : List Byte := [0x5A, 0x54, 1] ++ List.replicate 29 0

def sig0 : SigRec := { num := 1, own := 1 }

def sigPart : Block :=
  let l := sigCbor sig0
  { housed true with house := { (housed true).house with sigIn := [(1, (l.length, l.take (l.length - 32)))] } }

def sigEnd : HouseMsg := { said 11 with subject := 0, body := (sigCbor sig0).drop ((sigCbor sig0).length - 32) }

/-- FragmentsAndAdmission: the first fragment of a longer unit, and the last of a whole one. -/
theorem witness_fragments :
    after1 (housed false) { said 10 with subject := 64 } (fun b => isNext b 1 (said 10) &&
      (takeFragment b.house.relayIn 1 { said 10 with subject := 64 }).2.isNone) = true ∧
    after1 (housed false) { said 10 with subject := 32, body := frame0 } (fun b =>
      (takeFragment b.house.relayIn 1 { said 10 with subject := 32, body := frame0 }).2 == some frame0 && headerOk frame0 &&
        b.geo.keeper == 1 && !b.house.isKeeper) = true ∧
    after1 (housed true) { said 10 with subject := 32, body := frame0 } (fun b => b.house.isKeeper && cabled b) = true ∧
    after1 sigPart sigEnd (fun b => isNext b 1 sigEnd &&
      (match (takeFragment b.house.sigIn 1 sigEnd).2 with | some u => (readSig u).isSome | none => false)) = true ∧
    after1 (housed true) (said 12) (fun b => houseOf b 1 == some (ownHouse b) && !b.house.joins.contains 1 && keyedWith b 1) = true ∧
    after1 (housed false) (said 13) (fun b => b.geo.keeper == 1 && (linksRekeyed b || (b.house.admitted && !b.fab.fenced))) = true := by decide +kernel

/-! Frames at the host port. -/

/-- A frame of an EtherType, with its FCS; an IPv4 datagram with 32 bytes in UDP. -/
def framed (ether : Nat) (x : List Byte) : List Byte :=
  let b := List.replicate 12 0 ++ beBytes 2 ether ++ x
  b ++ fcsOf b

def datagram (port : Byte) : List Byte :=
  [0x45, 0, 0, 0x3C, 0, 0, 0, 0, 0x40, 0x11, 0x66, 0xAF, 0x0A, 0, 0, 2, 0x0A, 0, 0, 1, 0x12, 0x34, 0xB9, port, 0, 0x28, 0, 0] ++
    List.replicate 32 0

/-- HostFramesReceived: a frame too short; an EtherType that is none of the three; an IP header that fails; a port that
fails and one that passes. -/
theorem witness_frames : cabled (block 0 0) = true ∧ ¬ 18 ≤ ([] : List Byte).length ∧
    18 ≤ (framed 0x88CC []).length ∧ (framed 0x0800 (datagram 0xA0)).length ≤ 9216 ∧
    beAt (framed 0x88CC []) 12 2 = 0x88CC ∧ beAt (framed 0x0800 (datagram 0xA0)) 12 2 = 0x0800 ∧
    ipTake (block 0 0).hp 0x0800 [] = none ∧
    (ipTake (block 0 0).hp 0x0800 (datagram 0xA0)).map (fun d => (d.proto, (udpTake d).isSome)) = some (17, true) ∧
    (ipTake (block 0 0).hp 0x0800 (datagram 0x00)).map (fun d => (udpTake d).isNone) = some true := by decide +kernel

theorem witness_fcs (b : List Byte) :
    fcsOf ((b ++ fcsOf b).take ((b ++ fcsOf b).length - 4)) = (b ++ fcsOf b).drop ((b ++ fcsOf b).length - 4) := by
  have h : (fcsOf b).length = 4 := rfl
  have k : (b ++ fcsOf b).length - 4 = b.length := by rw [List.length_append, h]; omega
  rw [k, List.take_left, List.drop_left]

def agreement0 : Agreement := { role := 0, peer := [], transcript := [], session := 9, dk := [] }

/-- SessionsOpenAndEnd: a session with frames to acknowledge, room for another, a root that works and signs, an agreement
of the open role. -/
theorem witness_sessions : (tlook (block 0 0).sessions 7).isSome = true ∧ (block 0 0).sessions.length < 8 ∧
    canKey (block 0 0) = true ∧ (report (block 0 0) [] 0).isSome = true ∧
    (chanOf { chan := [{ ackDue := 1 }, {}, {}] } 0).ackDue ≠ 0 ∧
    (([agreement0] : List Agreement).find? fun a => a.session.toNat == 9) = some agreement0 ∧ agreement0.role = 0 := by
  decide +kernel

/-- AddressServices. -/
theorem witness_address : (tget ([(7, { now := 3 })] : Tbl Itin) {} 7).now = 3 ∧
    State.reset.blk.hp.link.toNat < 2 ∧ (block 0 0).hp.ipv4 = true ∧ (block 0 0).hp.ip4 = 0x0A000001 ∧
    (addIp6 (block 0 0).hp 5).ip6.contains 5 = true := by decide +kernel

/-! Host commands of session 7, whose role is the one asked for. -/

def ruled (r : Role) (b : Block) : Block :=
  { b with sessions := [(7, { role := r, peer := [], z := [] })], hp := { b.hp with lastCtr := 255 } }

def cmd (flags : U16) (p : List Byte) : Cmd :=
  { session := 7, flags := flags, len := p.length, id := 1, counter := 300, target := 0, params := p, check := [] }

/-- The command with the check its session's key gives it. -/
def checked (op : Nat) (p : List Byte) : Cmd :=
  let h := cmd 1 p
  { h with check := Config.kmac (commandKey []) (leBytes 8 h.session ++ cmdBytes op h) 128 (ascii "ZTM-T32 CMD") }

def ses (r : Role) : Session := { role := r, peer := [], z := [] }

/-- CommandsCheckedInOrder, GeneralCommands to BulkFrames: a command that is not critical, one that is. -/
theorem witness_accepted (b : Block) (hb : b.geo.own = 0) (op : Nat) (r : Role) (p : List Byte) (roles : List Role)
    (h : roles.contains r = true) :
    Accepted (ruled r b) op false roles (cmd 0 p) (ses r) ∧ Accepted (ruled r b) op true roles (checked op p) (ses r) := by
  have h0 : (0 : Nat) = b.geo.own.toNat := by rw [hb]; rfl
  have h1 : (1#16).getLsbD 0 = true := by decide
  have h3 : (0#16).getLsbD 0 = false := by decide
  have h2 : (255#64).toNat < (300#64).toNat := by decide
  exact ⟨⟨rfl, rfl, h0, h3, rfl, h, fun x => absurd x (by decide)⟩, ⟨rfl, rfl, h0, h1, rfl, h, fun _ => ⟨rfl, h2⟩⟩⟩

/-- CommandsCheckedInOrder: the refusals, one by one. -/
theorem witness_refused : (([{ id := 1, op := 1, status := 0, detail := 0, data := [] }] : List Reply).find? fun r =>
      r.id == (cmd 0 []).id).isSome = true ∧ { cmd 0 [] with target := 5 }.target ≠ (block 0 0).geo.own.toNat ∧
    relayMember (housed true) 1 = true ∧ relayMember (block 0 0) 5 = false ∧ (cmd 0 []).flags.getLsbD 0 ≠ true ∧
    { cmd 0 [] with len := 3 }.len ≠ (cmd 0 []).params.length ∧ operatorOnly.contains .opened = false ∧
    (cmd 1 []).counter.toNat = 300 ∧ { cmd 1 [] with counter := 255 }.counter.toNat ≤ (ruled .operator (block 0 0)).hp.lastCtr.toNat := by
  decide +kernel

/-- GeneralCommands: the address of CHIP_ID, and parameters of the two forms of the signature store's command. -/
theorem witness_general : isControl (par (cmd 0 [0, 0, 0, 0, 0, 0x1F, 0, 0]) 0 8 / 4 * 4) = true ∧
    blkAt (block 0 0) (blkIndex 0x1F0000000000) = .chip ∧ blkAt (block 0 0) (blkIndex 0x1F0000000000) ≠ .vyano ∧
    (block 0 0).chip.policy.getLsbD 0 = false ∧ par (cmd 0 (List.replicate 12 0)) 1 1 ≤ 1 ∧
    par (cmd 0 [1, 0, 0, 0, 9, 0, 0, 0]) 0 1 = 1 := by decide +kernel

/-- Context 1, for which one page was retained, is to be created; contexts in the states that let one run, drain, resume. -/
def retaining : Block :=
  { block 0 0 with vy := { (block 0 0).vy with retained := [(1, ([5], [], 0))] } }

def createPar : List Byte :=
  [1, 0, 1, 0, 0, 0, 0x20, 0, 10, 0, 0, 0, 0, 0, 0, 0] ++ List.replicate 16 0 ++
    [0, 0, 0xA0, 0, 0, 0, 0, 0, 0, 0, 0x20, 0, 0, 0, 0, 0]

def stated (x : CtxSt) : Block := setCtx (block 0 0) 0 { ctxOf (block 0 0) 0 with st := x, session := 7 }

theorem witness_context_commands : let r := ctxReq (cmd 1 createPar)
    createPar.length = 0x20 + 16 * r.1.ranges.length ∧ mayCreate retaining r.1.epoch = true ∧
    createRefusal retaining r.1 = none ∧ (runCtx (stated .created) 0).isSome = true ∧
    (drainCtx (stated .runnable) 0).isSome = true ∧ (resumeCtx (stated .haltedStep) 0).isSome = true ∧
    (∀ x ∈ [Role.operator, Role.owner], holds { ctxOf (stated .created) 0 with ownerKey := some [] } 7 (ses x) = true) ∧
    (ctxOf (stated .created) 0).confidential = false ∧ (ctxOf (stated .created) 0).step.toNat ≤ 5 := by decide +kernel

/-- An image of 4 096 bytes in page 3 that its digest names. -/
def imaged : Block :=
  wrKeys (stated .created) 0x600000 ([0x47, 0x41, 0x58, 0x55, 1, 0, 0, 0, 0, 16] ++ List.replicate 54 0)

theorem witness_load (digest : List Byte) (h : Config.shake (rdKeys imaged 0x600000 4096) = digest) :
    loadRefusal imaged 0 0x600000 digest = none := by
  have a : imageInside imaged 0 0x600000 64 = true := by decide +kernel
  have c : rdNat imaged 0x600000 4 = 0x55584147 := by decide +kernel
  have d : rdNat imaged 0x600004 2 = 1 := by decide +kernel
  have e : rdNat imaged 0x600008 8 = 4096 := by decide +kernel
  have f : imageInside imaged 0 0x600000 4096 = true := by decide +kernel
  have g : ([0, 1, 2, 3].any fun j =>
      let v := rdNat imaged (0x600000 + 16 + 8 * j) 8
      v % 8 != 0 || decide (4096 ≤ v)) = false := by decide +kernel
  have k : (ctxOf imaged 0).confidential = false := by decide +kernel
  simp only [loadRefusal, a, c, d, e, g, k, h]
  simp [f]

/-- ModuleCommands: parameters of each kind, a window closed and open, no confidential context, a tile that is present. -/
theorem witness_module_commands : par (cmd 1 (1 :: List.replicate 65 0)) 0 1 = 1 ∧
    (1 :: List.replicate 65 0 : List Byte).length = 66 ∧ (block 0 0).hp.window = none ∧
    (∀ e ∈ (block 0 0).ctxs, e.2.confidential = false) ∧ resident (block 0 0) 0 = true ∧
    tilePresent (block 0 0) 0 = true ∧ par (cmd 1 [3, 0, 0, 0]) 0 1 = 3 ∧ par (cmd 1 [2, 0, 0, 0]) 0 1 = 2 ∧
    (afterCounter (ruled .operator (block 0 0)) (checked 0x0031 [])).vy.ops.getD 0 none = none := by decide +kernel

/-- What a window holds is installed or refused; which, its signature settles. -/
theorem witness_install (b : Block) (w : List Byte) : (∃ r, installWindow b w = .inl r) ∨ ∃ d, installWindow b w = .inr d := by
  cases installWindow b w with
  | inl r => exact .inl ⟨r, rfl⟩
  | inr d => exact .inr ⟨d, rfl⟩

def runPar : List Byte := [0, 0, 1, 1, 1, 0, 0, 0, 1] ++ List.replicate 23 0

def tablePar : List Byte :=
  [0, 0, 0, 0, 0, 0, 0x20, 0, 1, 1, 1, 1, 0, 1, 2, 3, 1] ++ List.replicate 50 0

/-- TestAndTableCommands: a run of the built-in patterns where nothing is runnable, a package to remove, the sparing marks,
and the table of a job of one module. -/
theorem witness_test_commands : runPar.length = 0x20 ∧ par (cmd 1 runPar) 2 1 ≤ 2 ∧ par (cmd 1 runPar) 3 1 ≤ 2 ∧
    runnableAny (stated .drained) = false ∧ (block 0 0).ft.run = none ∧ (block 0 0).chip.policy.getLsbD 1 = false ∧
    tableRefusal (block 0 0) tablePar.length (readTable tablePar) = none := by decide +kernel

/-- BulkFrames: a range of the context's pages, one outside, a control address, no window. -/
theorem witness_bulk : bulkRefusal (block 0 0) (ses .operator) 0 0x600000 8 0x50 = none ∧
    bulkRefusal (block 0 0) (ses .operator) 0 0xA00000 8 0x50 = some 0x50 ∧ isControl 0x600000 = false ∧
    isControl 0x1F0000000000 = true ∧ (block 0 0).hp.window = none ∧
    (readOwn (wakeStack (block 0 0) 0x600000) 0x600000 8).1.2 = none := by decide +kernel

/-! Registers, power, test ports. -/

/-- UnitControlRegisters, LinkAndPortControlRegisters: no half of a pair waits; links in and out of the states they name. -/
theorem witness_controls : tilePresent (block 0 0) 0 = true ∧ (blkOf (block 0 0) 0x10000).pair = none ∧
    (blkOf (block 0 0) 0x103).pair = none ∧ (blkOf (block 0 0) 0x80).pair = none ∧ (blkOf (block 0 0) 0xC0).pair = none ∧
    replaying (block 0 0) = false ∧ (linkOf (linked { st := 11, loop := 1, pattern := 1 }) 0).st = 11 ∧
    (linkOf (linked { st := 7 }) 0).st ≠ 9 ∧ (block 0 0).hp.disable = false ∧ (0#12).toNat % 8 ≤ 4 := by decide +kernel

/-- RegisterWrites: a shadowed register of the chip block and of a link; a locked and an unlocked policy; a half of a pair
whose window is used up; a counter of two words. -/
theorem witness_register_writes : blkAt (block 0 0) 0 = .chip ∧ (shadowFix (blkAt (block 0 0) 0) 0xB00C 7).isSome = true ∧
    (shadowFix (blkAt (block 0 0) 0x80) 0x000C 0).isSome = true ∧ (block 0 0).chip.locks.getLsbD 0 = false ∧
    ({ block 0 0 with chip := { (block 0 0).chip with locks := 1 } }).chip.locks.getLsbD 0 = true ∧
    (blkOf (setBlk (block 0 0) 3 { pair := some (8, 0, 0) }) 3).pair = some (8, 0, 0) ∧
    (counter64 (block 0 0) (0x1F0000000000 / 4 * 4 + 0xC040)).isSome = true := by decide +kernel

def phased (p : PowerPhase) (vin : U16) : Block := { block 0 0 with pw := { (block 0 0).pw with phase := p, vin := vin } }

/-- PowerInputsAndTemperature, StartsAndResets. -/
theorem witness_power : (phased .standby 4000).pw.phase = .standby ∧ 4000 ≤ (phased .standby 4000).pw.vin.toNat ∧
    (block 0 0).pw.pwrEn = true ∧ (phased .standby 3999).pw.vin.toNat < 4000 ∧ (block 0 0).pw.stop ≠ 2 ∧
    (block 0 0).pw.stop ≠ 3 ∧ (block 0 0).running = some 0 ∧
    ({ block 0 0 with pw := { (block 0 0).pw with hot := 1, resetCtx := some 0 } }).pw.hot ≠ 0 ∧
    resident (block 0 0) 0 = true ∧ (phased .starting 0).pw.phase = .starting ∧
    (phased (.resetting true) 0).pw.phase = .resetting true ∧ (phased .stopped 0).pw.phase = .stopped ∧
    ({ phased .stopped 0 with pw := { (phased .stopped 0).pw with recovering := true } }).pw.recovering = true := by decide +kernel

/-- Which image is refused, the signature of its header settles. -/
theorem witness_image (d : Block) : imageRefusal d d.pw.flash = none ∨ imageRefusal d d.pw.flash ≠ none := by
  cases imageRefusal d d.pw.flash with
  | none => exact .inl rfl
  | some r => exact .inr (by simp)

/-- TestPortsAndRuns: a run in progress, a lane that checks, a debug port that is live and one that is not. -/
theorem witness_test_ports : checking (linked { st := 11, pattern := 1, lanes := 511, locked := 511 }) 0 3 = true ∧
    (linkOf (linked { st := 11, pattern := 1, lanes := 511, locked := 511 }) 0).locked.getLsbD 3 = true ∧
    debugLive (block 0 0) = false ∧
    debugLive { block 0 0 with ft := { (block 0 0).ft with tap := 0x20 }, chip := { (block 0 0).chip with debugOn := true } } = true ∧
    heldHalted (setTileHw (block 0 0) 0 {}) tile0 = true ∧
    ({ block 0 0 with ft := { (block 0 0).ft with run := some { num := 1, pkg := 0, trigger := 0, ctx := none, sel := {} } } }).ft.run.isSome = true := by
  decide +kernel

/-- RestedKept: the state after reset is at rest, and so is a block with a context that runs. -/
theorem witness_rested : nextRunnable State.reset.blk = none ∧ State.reset.blk.pw.regionPll = [] ∧
    (block 0 0).running ≠ none := by decide +kernel

/-- SeamAdditionRules, SeamHolds, SeamMergeAgrees, SeamRounding: three values, one beyond what a seam adds, one below its
last unit. -/
theorem witness_seams : ([.fin false 1 0, .fin true 3 (-100), .nan] : List FVal).length ≤ 2 ^ 63 ∧
    seamEmpty.count.toNat + 3 + 3 < 2 ^ 48 ∧ seamTerm (.fin false 1 400) = 2 ^ 320 - 1 ∧
    seamTerm (.fin true 1 (-200)) = 0 ∧ seamTerm (.fin true 3 (-100)) = -(3 * 2 ^ 92) := by decide +kernel

/-- RecordsReadBack: a record of a signature and a message of a house within their fields. -/
theorem witness_records : (sig0.acked = false ∧ ∀ n ∈ [sig0.num, sig0.own, sig0.total, sig0.trigger, sig0.outcome], n < 2 ^ 64) ∧
    sig0.serial.length < 2 ^ 64 ∧ (said 1).kind < 2 ^ 8 ∧ (said 1).house < 2 ^ 16 ∧ (said 1).body.length = 32 := by
  decide +kernel

/-! Instruction words, written out from the tables of 06_gaxus_core.md. -/

/-- A word by its class, operation and the fields d, a, b (R137). -/
def word (cls op d a b : Nat) : U64 :=
  BitVec.ofNat 64 (cls * 2 ^ 58 + op * 2 ^ 52 + d * 2 ^ 47 + a * 2 ^ 42 + b * 2 ^ 37)

/-- ADD s3, s1, s2: class 000001, operation 000000, fields 00011, 00001, 00010. One word of each other class. -/
theorem test_decode_word :
    decodeWord tile0 0 0b000001_000000_00011_00001_00010_0000000000000000000000000000000000000 =
      some (.add tile0 (regs 3 1 2 0)) ∧
    decodeWord tile0 0 (word 0x02 0x01 3 1 0) = some (.st tile0 (regs 3 1 0 0)) ∧
    decodeWord tile0 0 (word 0x03 0x08 3 0 0) = some (.jal tile0 (regs 3 0 0 0)) ∧
    decodeWord tile0 0 (word 0x04 0x02 3 1 2) = some (.fmul tile0 (regs 3 1 2 0)) ∧
    decodeWord tile0 0 (word 0x05 0x01 0 1 0 + 0x025) = some (.syswXret tile0 (regs 0 1 0 0 ||| 0x25)) ∧
    decodeWord tile0 0 (word 0x08 0x08 3 1 0) = some (.vred tile0 (regs 3 1 0 0)) ∧
    decodeWord tile0 0 (word 0x10 0x0E 0 0 0 + 1) = some (.tieAdd tile0 1) ∧
    decodeWord tile0 0 (word 0x14 0x05 3 0 0) = some (.fence tile0 (regs 3 0 0 0)) ∧
    decodeWord drk0 9 (word 0x18 0x14 0 1 0) = some (.dfin drk0 (regs 0 1 0 0) 9) ∧
    decodeWord tile0 0 (word 0x1C 0x01 0 0 0) = some (.stepend tile0 0) ∧
    decodeWord rck0 0 (word 0x20 0x02 0 1 0) = some (.updAdamw rck0 (regs 0 1 0 0)) := by decide +kernel

/-- InstructionWords: a word of each round trip, and words that are none: of zeros, of class 0x06, an unnamed operation. -/
theorem witness_words : encodeWord (.add tile0 (regs 3 1 2 0)) = some (tile0, word 0x01 0x00 3 1 2) ∧
    formOk (.add tile0 (regs 3 1 2 0)) = true ∧ formOk (.tieAdd tile0 1) = true ∧ decodeWord tile0 0 0 = none ∧
    decodeWord tile0 0 (word 0x06 0 3 1 2) = none ∧ decodeWord tile0 0 (word 0x01 0x0A 3 1 2) = none ∧
    wordClass (word 0x06 0 3 1 2) ∉ [0x01, 0x02, 0x03, 0x04, 0x05, 0x08, 0x10, 0x14, 0x18, 0x1C, 0x20] := by decide +kernel

/-! Memory. -/

/-- R270, the example of 10_memory.md: local address 0x5432100A40. -/
theorem test_address_example : 0x5432100A40 / 2 ^ 36 = 5 ∧ logicalChan 0x5432100A40 = 67 ∧
    logicalLine 0x5432100A40 = 549920 ∧ 0x5432100A40 % 2 ^ 36 / 64 = 0x10C84029 ∧ cacheSet 0x10C84029 = 777 := by
  decide +kernel

/-- The code word at local address 0x600000 holds an error in two symbols, which the code cannot correct. -/
def bad (x y : U64) : Block := { block x y with memErr := [(0x600000 / 16, 0x11)] }

def uncorrected : ReadOut → Bool | .refused _ => true | _ => false

/-- The clauses of words that cannot be corrected: of LoadAndStore, ShortVectorMemoryAndReduction, CounterWaits,
FenceCollectiveAndRecordFields, DerrickRounds, BulkFrames, ContextCommands and StepsClose. -/
theorem witness_uncorrected :
    uncorrected (meetRead (bad 0x600000 0) 0 tile0 0x600000 8) = true ∧
    uncorrected (meetRead (svuTouch (bad 0x600000 0) tile0) 0 tile0 0x600000 16) = true ∧
    uncorrected (meetRead (bad 0x600000 8) 0 tile0
      (waitcAddr (bad 0x600000 8) (unit1 0x600000 8) (regs 3 1 2 0)).1 8) = true ∧
    uncorrected (meetRead (bad 0x600000 0) 0 tile0
      (collBlock (bad 0x600000 0) (unit1 0x600000 0) (regs 3 1 0 0)).1 64) = true ∧
    uncorrected (meetRead (bad 0 0) 0 tile0 sub0.addr sub0.len) = true ∧
    (readOwn (wakeStack (bad 0 0) 0x600000) 0x600000 8).1.2 = some 0x600000 ∧
    badByte (bad 0x600000 0) 0 0x600000 8 = none ∧ missing (bad 0x600000 0) 0 (unit1 0x600000 0) 0x600000 8 = false := by
  decide +kernel

/-- A word of the partner's message that cannot be corrected, and an image of one (StepsClose, ContextCommands). -/
theorem witness_uncorrected_records :
    (let b := { closing .pairWait with memErr := [((lcBase (ctxOf (closing .pairWait) 0) + 0x40) / 16, 0x11)] }
     let x := ctxOf b 0
     (readOwn b (lcBase x + 0x40 + 64 * (x.pairQ % 2)) 56).1.2.isSome) = true ∧
    (readOwn { imaged with memErr := [(0x600000 / 16, 0x11)] } 0x600000 4096).1.2.isSome = true := by decide +kernel

/-- DerrickSubmitAndPoll: 256 batches are stored, and DSUB waits. -/
theorem witness_derrick_full :
    (let d : Drk := { halt := false, queue := List.replicate 256 batch0 }
     (stored d).length + d.subs.length) = 256 := by decide +kernel

/-- UnitControlRegisters: DRK_FORCE in a replay, and in none. -/
theorem witness_force : (ctxOf (setCtx (block 0 0) 0 { ctxOf (block 0 0) 0 with replay := true }) 0).replay = true ∧
    (ctxOf (block 0 0) 0).replay = false ∧ (block 0 0).running = some 0 := by decide +kernel

end Sys2Proof.Tests
end

section
/-!
The block stays at rest: whatever command a step takes, what follows every command ends the step, and that leaves the
block at rest.
-/
namespace Sys2Proof.Machine

/-- What follows every command follows each of them, in whatever power state it acts. In every arm of `exec` the block
`b` is the effect that `act`, `actUp` or `actPowered` is given, so unfolding the arm shows it. -/
theorem exec_became (i : Instr) (s : State) : ∃ b, exec i s = .next (became s b) := by
  cases i <;> exact ⟨_, rfl⟩

/-- What a step can do (logs 1 and 2): idle on an empty queue, or take the front command and what follows it. -/
theorem step_cases {s t : State} (h : step s = .next t) :
    (s.pending = [] ∧ t = s) ∨
    ∃ i rest b, s.pending = i :: rest ∧ exec i { s with pending := rest } = .next t ∧
      t = became { s with pending := rest } b := by
  unfold step at h
  split at h
  next hq =>
    cases h
    exact .inl ⟨hq, rfl⟩
  next i rest hq =>
    obtain ⟨b, hb⟩ := exec_became i { s with pending := rest }
    have ht : t = became { s with pending := rest } b := by
      rw [hb] at h
      exact (Host.Outcome.next.inj h).symm
    exact .inr ⟨i, rest, b, hq, h, ht⟩

/-- Settles O54: an idle step keeps the block, and the schedule that ends every other step leaves it at rest. -/
theorem restedKept : Obligations.RestedKept := by
  unfold Obligations.RestedKept
  intro s t hrest hstep
  obtain ⟨-, rfl⟩ | ⟨i, rest, b, -, -, rfl⟩ := step_cases hstep
  · exact hrest
  · exact after_rested s.blk b

end Sys2Proof.Machine
end

section
/-!
What adding a value to a seam does to each of its fields, and what adding a list of them does (R49, R50, R91).
-/
namespace Sys2Proof.Machine

/-! ### Counters that stop -/

theorem toNat_satAdd {w : Nat} (x : BitVec w) (n : Nat) : (satAdd x n).toNat = min (x.toNat + n) (2 ^ w - 1) := by
  have hpos : 0 < 2 ^ w := Nat.two_pow_pos w
  rw [satAdd, BitVec.toNat_ofNat, Nat.mod_eq_of_lt (by omega)]

/-- Counts add up, whether or not the counter has stopped in between. -/
theorem satAdd_satAdd {w : Nat} (x : BitVec w) (m n : Nat) : satAdd (satAdd x m) n = satAdd x (m + n) := by
  apply BitVec.eq_of_toNat_eq
  simp only [toNat_satAdd]
  omega

/-- A count that has stopped itself adds as much as the true one. -/
theorem satAdd_toNat_satAdd_zero {w : Nat} (x : BitVec w) (n : Nat) :
    satAdd x (satAdd 0#w n).toNat = satAdd x n := by
  apply BitVec.eq_of_toNat_eq
  simp only [toNat_satAdd, BitVec.toNat_ofNat, Nat.zero_mod]
  omega

/-! ### One value -/

/-- Step 3 of R49: the magnitude reaches 2^128. -/
def seamExceeds : FVal → Bool
  | .fin _ m e => decide (2 ^ 320 ≤ (seamUnits m e).1)
  | _ => false

/-- Step 4 of R49: the value stays in range and has nonzero bits below 2^-192. -/
def seamTruncates : FVal → Bool
  | .fin sg m e => !seamExceeds (.fin sg m e) && (seamUnits m e).2
  | _ => false

/-- The units of 2^-192 that a finite value adds, truncated and held in range. -/
def seamMag (m : Nat) (e : Int) : Nat := min (seamUnits m e).1 seamMax

theorem seamMag_le (m : Nat) (e : Int) : seamMag m e ≤ seamMax := Nat.min_le_right _ _

theorem seamMag_of_exceeds {m : Nat} {e : Int} (h : 2 ^ 320 ≤ (seamUnits m e).1) : seamMag m e = seamMax := by
  unfold seamMag seamMax
  omega

theorem seamMag_of_lt {m : Nat} {e : Int} (h : (seamUnits m e).1 < 2 ^ 320) : seamMag m e = (seamUnits m e).1 := by
  unfold seamMag seamMax
  omega

theorem seamTerm_fin (sg : Bool) (m : Nat) (e : Int) :
    seamTerm (.fin sg m e) = (if sg then -1 else 1) * (seamMag m e : Int) := by
  cases sg <;> simp [seamTerm, seamMag]

/-- Steps 3 to 5 of R49 change V by the value's term. -/
theorem seamAdd_fin_v (sg : Bool) (m : Nat) (e : Int) (s : Seam) :
    (seamAdd (.fin sg m e) s).v = s.v + BitVec.ofInt 384 (seamTerm (.fin sg m e)) := by
  have hmag : (if 2 ^ 320 ≤ (seamUnits m e).1 then seamMax else (seamUnits m e).1) = seamMag m e := by
    split
    · exact (seamMag_of_exceeds ‹_›).symm
    · exact (seamMag_of_lt (by omega)).symm
  cases sg <;> simp [seamAdd, seamTerm_fin, hmag, BitVec.ofInt_neg, BitVec.sub_eq_add_neg, -Nat.reducePow]

/-- R49 in one equation: each field of the seam takes its own part of the value. -/
theorem seamAdd_eq (x : FVal) (s : Seam) : seamAdd x s =
    { v := s.v + BitVec.ofInt 384 (seamTerm x)
      nan := s.nan || x == .nan
      pinf := s.pinf || x == .inf false
      ninf := s.ninf || x == .inf true
      sat := s.sat || seamExceeds x
      under := s.under || seamTruncates x
      count := satAdd s.count 1 } := by
  cases x with
  | nan => simp [seamAdd, seamTerm, seamExceeds, seamTruncates]
  | inf sg => cases sg <;> simp [seamAdd, seamTerm, seamExceeds, seamTruncates]
  | fin sg m e =>
    rw [← seamAdd_fin_v]
    simp [seamAdd, seamExceeds, seamTruncates, -Nat.reducePow]

/-! ### A list of values -/

/-- Adding a list of values: no field looks at their order. -/
theorem seamSum_eq (s : Seam) (l : List FVal) : seamSum s l =
    { v := s.v + BitVec.ofInt 384 (l.map seamTerm).sum
      nan := s.nan || l.any (· == .nan)
      pinf := s.pinf || l.any (· == .inf false)
      ninf := s.ninf || l.any (· == .inf true)
      sat := s.sat || l.any seamExceeds
      under := s.under || l.any seamTruncates
      count := satAdd s.count l.length } := by
  induction l generalizing s with
  | nil => simp [seamSum]
  | cons x l ih =>
    have hcons : seamSum s (x :: l) = seamSum (seamAdd x s) l := rfl
    simp [hcons, ih, seamAdd_eq, satAdd_satAdd, BitVec.ofInt_add, BitVec.add_assoc, Bool.or_assoc, Nat.add_comm]

/-- The content is the same for every order of the addends (R49). -/
theorem seamSum_perm (s : Seam) {l m : List FVal} (h : l.Perm m) : seamSum s m = seamSum s l := by
  simp only [seamSum_eq, (h.map seamTerm).sum_eq, h.any_eq, h.length_eq]

/-- Merging agrees with adding both lists, also where the count has stopped (R91). -/
theorem seamMerge_seamSum (s : Seam) (l m : List FVal) :
    seamMerge (seamSum seamEmpty l) (seamSum s m) = seamSum s (m ++ l) := by
  simp [seamMerge, seamSum_eq, seamEmpty, satAdd_toNat_satAdd_zero, satAdd_satAdd, BitVec.ofInt_add, BitVec.add_assoc,
    Bool.or_assoc]

/-- Settles O57: the fields of a seam add up by associativity, so the split does not show. -/
theorem seamMergeAgrees : Obligations.SeamMergeAgrees :=
  fun s l m _ => seamMerge_seamSum s l m

/-! ### The bound of 2^63 values -/

theorem abs_seamTerm_le (x : FVal) : |seamTerm x| ≤ seamMax := by
  cases x with
  | nan => simp [seamTerm]
  | inf sg => simp [seamTerm]
  | fin sg m e =>
    have hmag : |seamTerm (.fin sg m e)| = seamMag m e := by cases sg <;> simp [seamTerm_fin]
    rw [hmag]
    exact_mod_cast seamMag_le m e

theorem abs_sum_seamTerm_le (l : List FVal) : |(l.map seamTerm).sum| ≤ l.length * seamMax := by
  induction l with
  | nil => simp
  | cons x l ih =>
    calc |((x :: l).map seamTerm).sum| ≤ |seamTerm x| + |(l.map seamTerm).sum| := by
          simpa using abs_add_le (seamTerm x) (l.map seamTerm).sum
      _ ≤ seamMax + l.length * seamMax := add_le_add (abs_seamTerm_le x) ih
      _ = (x :: l).length * seamMax := by rw [List.length_cons]; push_cast; ring

/-- 2^63 addends of the largest magnitude stay below half the range of V (R50). -/
theorem mul_seamMax_lt {n : Nat} (h : n ≤ 2 ^ 63) : n * seamMax < 2 ^ 383 :=
  calc n * seamMax ≤ 2 ^ 63 * seamMax := Nat.mul_le_mul_right _ h
    _ < 2 ^ 63 * 2 ^ 320 := by unfold seamMax; omega
    _ = 2 ^ 383 := (pow_add 2 63 320).symm

/-- Settles O56: the sum keeps within 2^63 times the largest magnitude, which V holds (R50). -/
theorem seamHolds : Obligations.SeamHolds := by
  unfold Obligations.SeamHolds
  intro l hl
  have hsum : |(l.map seamTerm).sum| < 2 ^ 383 :=
    (abs_sum_seamTerm_le l).trans_lt (by exact_mod_cast mul_seamMax_lt hl)
  obtain ⟨hlo, hhi⟩ := abs_lt.mp hsum
  have hv : (seamSum seamEmpty l).v = BitVec.ofInt 384 (l.map seamTerm).sum := by simp [seamSum_eq, seamEmpty]
  rw [hv, BitVec.toInt_ofInt]
  exact Int.bmod_eq_of_le (by omega) (by omega)

/-! ### The addend range -/

/-- From 2^-192 up a value is a whole number of units. -/
theorem units_eq_natCast (m : Nat) {e : Int} {k : Nat} (hk : e + 192 = k) :
    (m : ℚ) * 2 ^ (e + 192) = ((m * 2 ^ k : Nat) : ℚ) := by
  rw [hk, zpow_natCast]
  push_cast
  rfl

theorem units_eq_div (m : Nat) {e : Int} {k : Nat} (hk : e + 192 = -k) :
    (m : ℚ) * 2 ^ (e + 192) = (m : ℚ) / ((2 ^ k : Nat) : ℚ) := by
  rw [hk, zpow_neg, zpow_natCast, div_eq_mul_inv]
  push_cast
  rfl

theorem seamUnits_of_nonneg (m : Nat) {e : Int} {k : Nat} (hk : e + 192 = k) : seamUnits m e = (m * 2 ^ k, false) := by
  simp [seamUnits, hk, Nat.shiftLeft_eq]

theorem seamUnits_of_neg (m : Nat) {e : Int} {k : Nat} (hk : e + 192 = -k) (hpos : 0 < k) :
    seamUnits m e = (m / 2 ^ k, m % 2 ^ k != 0) := by
  have hneg : ¬ 0 ≤ e + 192 := by omega
  have hshift : (-(e + 192)).toNat = k := by omega
  simp only [seamUnits, if_neg hneg, hshift, Nat.shiftRight_eq_div_pow]

/-- A quotient of naturals is whole just when nothing remains. -/
theorem floor_ne_div_iff (m d : Nat) (hd : 0 < d) :
    (⌊(m : ℚ) / (d : ℚ)⌋ : ℚ) ≠ (m : ℚ) / d ↔ m % d ≠ 0 := by
  have hd' : (d : ℚ) ≠ 0 := by exact_mod_cast hd.ne'
  rw [Rat.floor_natCast_div_natCast, ne_eq, eq_div_iff hd', not_iff_not]
  norm_cast
  rw [← Nat.dvd_iff_div_mul_eq, Nat.dvd_iff_mod_eq_zero]

/-- A finite value's magnitude in units of 2^-192, as steps 3 and 4 of R49 measure it: its whole units, and whether more
lies below them. -/
theorem seamUnits_eq_floor (m : Nat) (e : Int) :
    ((seamUnits m e).1 : Int) = ⌊(m : ℚ) * 2 ^ (e + 192)⌋ ∧
      ((seamUnits m e).2 = true ↔ (⌊(m : ℚ) * 2 ^ (e + 192)⌋ : ℚ) ≠ (m : ℚ) * 2 ^ (e + 192)) := by
  by_cases he : 0 ≤ e + 192
  · obtain ⟨k, hk⟩ := Int.eq_ofNat_of_zero_le he
    rw [seamUnits_of_nonneg m hk, units_eq_natCast m hk, Int.floor_natCast]
    simp
  · obtain ⟨k, hk⟩ := Int.eq_ofNat_of_zero_le (show 0 ≤ -(e + 192) by omega)
    have hk' : e + 192 = -k := by omega
    rw [seamUnits_of_neg m hk' (by omega), units_eq_div m hk', floor_ne_div_iff m _ (Nat.two_pow_pos k),
      Rat.floor_natCast_div_natCast]
    simp

/-- The range test of R49 step 3 on the units that the seam holds. -/
theorem two_pow_le_units_iff (m : Nat) (e : Int) :
    2 ^ 320 ≤ (m : ℚ) * 2 ^ (e + 192) ↔ 2 ^ 320 ≤ (seamUnits m e).1 := by
  have hcast : (2 : ℚ) ^ 320 = ((2 ^ 320 : Int) : ℚ) := by norm_cast
  rw [hcast, ← Int.le_floor, ← (seamUnits_eq_floor m e).1]
  norm_cast

/-- A finite value beyond the addend range adds the largest magnitude and sets SEAM_SAT alone. -/
theorem seamAdd_fin_of_exceeds (s : Seam) (sg : Bool) {m : Nat} {e : Int} (h : 2 ^ 320 ≤ (m : ℚ) * 2 ^ (e + 192)) :
    (seamAdd (.fin sg m e) s).sat = true ∧ (seamAdd (.fin sg m e) s).under = s.under ∧
      seamTerm (.fin sg m e) = (if sg then -1 else 1) * (2 ^ 320 - 1) := by
  have hbig := (two_pow_le_units_iff m e).mp h
  have hmax : (seamMax : Int) = 2 ^ 320 - 1 := by norm_num [seamMax]
  refine ⟨?_, ?_, ?_⟩
  · simp only [seamAdd_eq, seamExceeds, hbig, decide_true, Bool.or_true]
  · simp only [seamAdd_eq, seamTruncates, seamExceeds, hbig, decide_true, Bool.not_true, Bool.false_and, Bool.or_false]
  · rw [seamTerm_fin, seamMag_of_exceeds hbig, hmax]

/-- A finite value within it adds its whole units, and SEAM_UNDER is set when there was more. -/
theorem seamAdd_fin_of_lt (s : Seam) (sg : Bool) {m : Nat} {e : Int} (h : (m : ℚ) * 2 ^ (e + 192) < 2 ^ 320) :
    (seamAdd (.fin sg m e) s).sat = s.sat ∧
      ((seamAdd (.fin sg m e) s).under = true ↔
        s.under = true ∨ (⌊(m : ℚ) * 2 ^ (e + 192)⌋ : ℚ) ≠ (m : ℚ) * 2 ^ (e + 192)) ∧
      seamTerm (.fin sg m e) = (if sg then -1 else 1) * ⌊(m : ℚ) * 2 ^ (e + 192)⌋ := by
  obtain ⟨hwhole, hmore⟩ := seamUnits_eq_floor m e
  have hsmall : ¬ 2 ^ 320 ≤ (seamUnits m e).1 := fun hbig => h.not_ge ((two_pow_le_units_iff m e).mpr hbig)
  refine ⟨?_, ?_, ?_⟩
  · simp only [seamAdd_eq, seamExceeds, hsmall, decide_false, Bool.or_false]
  · simp only [seamAdd_eq, seamTruncates, seamExceeds, hsmall, decide_false, Bool.not_false, Bool.true_and,
      Bool.or_eq_true, hmore]
  · rw [seamTerm_fin, seamMag_of_lt (by omega), hwhole]

/-! ### The narrower formats -/

/-- The exponents of each format by its bias: the least is 1 - bias, and the top field is a number only where the format
has no infinity (R27, R29). -/
theorem fmt_exponents (f : Fmt) : fmtEmin f = 1 - fmtBias f ∧ fmtEmin f ≤ fmtEmax f ∧
    fmtEmax f + fmtBias f + (if fmtShort f then 1 else 2 : Nat) = (2 ^ fmtEbits f : Nat) := by
  cases f <;> decide

theorem two_pow_fmtP (f : Fmt) : 2 ^ fmtP f = 2 ^ fmtT f + 2 ^ fmtT f := by
  cases f <;> rfl

/-- A finite value comes of an exponent field of 0, without the hidden bit, or of one that is neither 0 nor kept for
infinities and NaN (R28, R29). -/
theorem fdecode_fin_cases {f : Fmt} {c : Nat} {sg : Bool} {m : Nat} {e : Int} (h : fdecode f c = .fin sg m e) :
    (m < 2 ^ fmtT f ∧ e = fmtEmin f - fmtT f) ∨
      ∃ ef : Nat, ef ≠ 0 ∧ ef + (if fmtShort f then 1 else 2) ≤ 2 ^ fmtEbits f ∧ m < 2 ^ fmtT f + 2 ^ fmtT f ∧
        e = (ef : Int) - fmtBias f - fmtT f := by
  simp only [fdecode] at h
  have hef := Nat.mod_lt (c % 2 ^ fmtWidth f / 2 ^ fmtT f) (Nat.two_pow_pos (fmtEbits f))
  have hfr := Nat.mod_lt (c % 2 ^ fmtWidth f) (Nat.two_pow_pos (fmtT f))
  generalize c % 2 ^ fmtWidth f / 2 ^ fmtT f % 2 ^ fmtEbits f = ef at h hef
  generalize c % 2 ^ fmtWidth f % 2 ^ fmtT f = fr at h hfr
  by_cases hzero : ef = 0
  · left
    simp only [hzero, if_true] at h
    split_ifs at h <;> cases h <;> exact ⟨hfr, rfl⟩
  · right
    refine ⟨ef, hzero, ?_⟩
    cases hshort : fmtShort f with
    | true =>
      simp only [hshort, hzero, if_true, if_false, decide_false, Bool.and_false, Bool.false_and,
        Bool.false_eq_true] at h ⊢
      injection h with _ hm he
      omega
    | false =>
      simp only [hshort, hzero, if_false, Bool.false_eq_true] at h ⊢
      by_cases htop : ef = 2 ^ fmtEbits f - 1
      · rw [if_pos htop] at h
        split at h <;> cases h
      · rw [if_neg htop] at h
        injection h with _ hm he
        omega

/-- What a code decodes to, when finite, has at most the format's significand and lies between its least and its largest
exponent (R27). -/
theorem fdecode_fin_bounds {f : Fmt} {c : Nat} {sg : Bool} {m : Nat} {e : Int} (h : fdecode f c = .fin sg m e) :
    m < 2 ^ fmtP f ∧ fmtEmin f - fmtT f ≤ e ∧ e + fmtT f ≤ fmtEmax f := by
  obtain ⟨hmin, hle, hmax⟩ := fmt_exponents f
  rw [two_pow_fmtP]
  obtain ⟨hm, he⟩ | ⟨ef, hzero, hef, hm, he⟩ := fdecode_fin_cases h
  · exact ⟨by omega, by omega, by omega⟩
  · exact ⟨hm, by omega, by omega⟩

/-- A value of binary32 and below is a whole number of units within the addend range (R49). -/
theorem fdecode_exact {f : Fmt} (hf : f ≠ .f64) {c : Nat} {sg : Bool} {m : Nat} {e : Int}
    (h : fdecode f c = .fin sg m e) :
    (m : ℚ) * 2 ^ (e + 192) < 2 ^ 320 ∧ (⌊(m : ℚ) * 2 ^ (e + 192)⌋ : ℚ) = (m : ℚ) * 2 ^ (e + 192) := by
  obtain ⟨hm, hlo, hhi⟩ := fdecode_fin_bounds h
  have hrange : -192 ≤ fmtEmin f - fmtT f ∧ fmtEmax f + 1 ≤ 128 ∧ fmtP f = fmtT f + 1 := by
    cases f <;> simp [fmtEmin, fmtEmax, fmtT, fmtP] at hf ⊢
  obtain ⟨hmin, hmax, hp⟩ := hrange
  obtain ⟨k, hk⟩ := Int.eq_ofNat_of_zero_le (show 0 ≤ e + 192 by omega)
  have hunits : m * 2 ^ k < 2 ^ 320 :=
    calc m * 2 ^ k < 2 ^ fmtP f * 2 ^ k := Nat.mul_lt_mul_of_pos_right hm (Nat.two_pow_pos k)
      _ = 2 ^ (fmtP f + k) := (pow_add 2 _ _).symm
      _ ≤ 2 ^ 320 := Nat.pow_le_pow_right (by omega) (by omega)
  rw [units_eq_natCast m hk, Int.floor_natCast]
  exact ⟨by exact_mod_cast hunits, by norm_cast⟩

/-- Settles O55: each field adds up on its own, the units of a value are the floor of its magnitude, and the narrower
formats are whole within the range. -/
theorem seamAdditionRules : Obligations.SeamAdditionRules := by
  refine ⟨fun s l => ?_, fun s sg m e => ?_, fun f hf c _ sg m e h => ?_⟩
  · refine ⟨?_, ?_, ?_, ?_, ?_, fun m h => seamSum_perm s h⟩
    case refine_2 =>
      rw [seamSum_eq, toNat_satAdd]
      split <;> omega
    all_goals simp only [seamSum_eq]
  · exact ⟨seamAdd_fin_of_exceeds s sg, seamAdd_fin_of_lt s sg⟩
  · exact fdecode_exact (by rintro rfl; simp at hf) h

end Sys2Proof.Machine
end

section
/-!
A seam in its 64-byte slot (R51).
-/
namespace Sys2Proof.Machine

/-! ### Little-endian bytes -/

@[simp] theorem length_leBytes (n v : Nat) : (leBytes n v).length = n := by
  induction n generalizing v with
  | zero => rfl
  | succ n ih => simp [leBytes, ih]

@[simp] theorem leBytes_zero (n : Nat) : leBytes n 0 = List.replicate n 0 := by
  induction n with
  | zero => rfl
  | succ n ih => simp [leBytes, ih, List.replicate_succ]

/-- n bytes spell a number below 256^n. -/
theorem leNat_leBytes (n v : Nat) : leNat (leBytes n v) = v % 256 ^ n := by
  induction n generalizing v with
  | zero => simp [leBytes, leNat, Nat.mod_one]
  | succ n ih =>
    simp only [leBytes, leNat, ih, BitVec.toNat_ofNat, pow_succ']
    exact (Nat.mod_mul).symm

theorem leNat_leBytes_of_lt {n v : Nat} (h : v < 256 ^ n) : leNat (leBytes n v) = v := by
  rw [leNat_leBytes, Nat.mod_eq_of_lt h]

/-- A word of n bytes reads back. -/
theorem leNat_leBytes_toNat {n : Nat} (x : BitVec (8 * n)) : leNat (leBytes n x.toNat) = x.toNat :=
  leNat_leBytes_of_lt (x.isLt.trans_eq (pow_mul 2 8 n))

/-! ### The slot -/

theorem seamFlags_lt (x : Seam) : seamFlags x < 32 := by
  unfold seamFlags
  linarith [x.nan.toNat_le, x.pinf.toNat_le, x.ninf.toNat_le, x.sat.toNat_le, x.under.toNat_le]

/-- Each flag has its bit (R51). -/
theorem testBit_seamFlags (x : Seam) :
    (seamFlags x).testBit 0 = x.nan ∧ (seamFlags x).testBit 1 = x.pinf ∧ (seamFlags x).testBit 2 = x.ninf ∧
      (seamFlags x).testBit 3 = x.sat ∧ (seamFlags x).testBit 4 = x.under := by
  unfold seamFlags
  generalize x.nan = a, x.pinf = b, x.ninf = c, x.sat = d, x.under = e
  decide +revert

theorem length_seamBytes (x : Seam) : (seamBytes x).length = 64 := by simp [seamBytes]

theorem leNat_seamBytes_value (x : Seam) : leNat ((seamBytes x).take 48) = x.v.toNat := by
  have hslot : (seamBytes x).take 48 = leBytes 48 x.v.toNat := by simp [seamBytes]
  rw [hslot]
  exact leNat_leBytes_toNat (n := 48) x.v

theorem leNat_seamBytes_flags (x : Seam) : leNat (((seamBytes x).drop 48).take 2) = seamFlags x := by
  have hslot : ((seamBytes x).drop 48).take 2 = leBytes 2 (seamFlags x) := by simp [seamBytes]
  rw [hslot]
  exact leNat_leBytes_of_lt ((seamFlags_lt x).trans (by norm_num))

theorem leNat_seamBytes_count (x : Seam) : leNat (((seamBytes x).drop 50).take 6) = x.count.toNat := by
  have hslot : ((seamBytes x).drop 50).take 6 = leBytes 6 x.count.toNat := by
    simp [seamBytes, List.drop_append, List.drop_eq_nil_of_le]
  rw [hslot]
  exact leNat_leBytes_toNat (n := 6) x.count

/-- The reserved bytes are zero (R7). -/
theorem seamBytes_reserved (x : Seam) {j : Nat} (h : 56 ≤ j) : (seamBytes x).getD j 0 = 0 := by
  have hfields : (leBytes 48 x.v.toNat ++ leBytes 2 (seamFlags x) ++ leBytes 6 x.count.toNat).length ≤ j := by
    simpa using h
  rw [seamBytes, List.getD_append_right _ _ _ _ hfields, leBytes_zero, List.getD_eq_getElem?_getD,
    List.getElem?_getD_replicate_default_eq]

theorem seamOfBytes_seamBytes (x : Seam) : seamOfBytes (seamBytes x) = x := by
  simp only [seamOfBytes, leNat_seamBytes_value, leNat_seamBytes_flags, leNat_seamBytes_count, testBit_seamFlags,
    BitVec.ofNat_toNat, BitVec.setWidth_eq]

/-- A slot of zero bytes is an empty seam (R51). -/
theorem seamOfBytes_zeros : seamOfBytes (List.replicate 64 0) = seamEmpty := by
  simp [seamOfBytes, seamEmpty, leNat]

/-- Settles O58: each field of the slot is the bytes of the seam's own, and its width holds it. -/
theorem seamSlots : Obligations.SeamSlots := by
  refine ⟨fun x => ⟨length_seamBytes x, leNat_seamBytes_value x, leNat_seamBytes_count x, ?_,
    fun j h _ => seamBytes_reserved x h, seamOfBytes_seamBytes x⟩, seamOfBytes_zeros⟩
  simp only [leNat_seamBytes_flags]
  exact ⟨seamFlags_lt x, testBit_seamFlags x⟩

end Sys2Proof.Machine
end

section
/-!
What a seam rounds to, and the events of it (R52).
-/
namespace Sys2Proof.Machine

theorem seamValue_nan {x : Seam} (h : x.nan = true) : (seamValue x).1 = .nan := by simp [seamValue, h]

theorem seamValue_opposite {x : Seam} (hp : x.pinf = true) (hn : x.ninf = true) : (seamValue x).1 = .nan := by
  simp only [seamValue, hp, hn, Bool.and_self, if_true]
  split <;> rfl

theorem seamValue_pinf {x : Seam} (h : x.nan = false) (hp : x.pinf = true) (hn : x.ninf = false) :
    (seamValue x).1 = .inf false := by simp [seamValue, h, hp, hn]

theorem seamValue_ninf {x : Seam} (h : x.nan = false) (hp : x.pinf = false) (hn : x.ninf = true) :
    (seamValue x).1 = .inf true := by simp [seamValue, h, hp, hn]

theorem seamValue_finite {x : Seam} (h : x.nan = false) (hp : x.pinf = false) (hn : x.ninf = false) :
    (seamValue x).1 =
      if x.v.toInt = 0 then .fin false 0 0 else .fin (decide (x.v.toInt < 0)) x.v.toInt.natAbs (-192) := by
  simp only [seamValue, h, hp, hn, Bool.false_eq_true, Bool.and_self, if_false]
  split <;> rfl

/-- The events of a rounding are those of the flags, and NAN_GEN where opposite infinities make the NaN (R52). -/
theorem seamValue_events (x : Seam) : (seamValue x).2 =
    { ssat := x.sat.toNat, sunder := x.under.toNat, nangen := (!x.nan && x.pinf && x.ninf).toNat } := by
  by_cases hnan : x.nan = true
  · simp [seamValue, hnan]
  by_cases hopposite : (x.pinf && x.ninf) = true
  · simp_all [seamValue]
  · rw [Bool.and_assoc, eq_false_of_ne_true hopposite, Bool.and_false]
    simp only [seamValue, if_neg hnan, if_neg hopposite, apply_ite Prod.snd, ite_self, Bool.toNat_false]

/-- Settles O59: the value that is rounded is the first case of the flags that applies, and rounding adds no event. -/
theorem seamRounding : Obligations.SeamRounding := by
  intro f x
  simp only [seamValue_events, seamRound, true_and]
  refine ⟨?_, ?_, ?_, ?_, ?_⟩
  · intro hnan
    rw [seamValue_nan hnan]
  · intro _ hp hn
    rw [seamValue_opposite hp hn]
  · intro hnan hp hn
    rw [seamValue_pinf hnan hp hn]
  · intro hnan hp hn
    rw [seamValue_ninf hnan hp hn]
  · intro hnan hp hn
    rw [seamValue_finite hnan hp hn]
    exact ⟨fun hzero => by rw [if_pos hzero], fun hzero => by rw [if_neg hzero]⟩

end Sys2Proof.Machine
end

section
/-!
The binary64 class (R37, R144, R145): the shared effect of its instructions, issued by a unit that executes.
-/
namespace Sys2Proof.Machine

/-- A legal instruction that only computes a new image of its unit retires with that image. -/
theorem actUp_issue_retire {s : State} {u : UnitId} {c : Nat} (h : Executes s u c) (w : U64) {legal : Bool}
    (hl : legal = true) (g : UnitImg → UnitImg) :
    actUp (fun b => issue b u w legal fun c i => retire b c u (g i)) s = .next (ran s c u (g (img s.blk c u))) := by
  rw [hl, actUp_next _ s h.1, issue_effect s u c h]
  rfl

/-- The image once a binary64 operation of outcome `r` has rounded it once into f[d], by the mode of the word, and
counted the events (R144). -/
def f64Rounded (i : UnitImg) (o : Ops) (r : FRes) : UnitImg :=
  let w := finish .f64 (modeOf (bits o 30 2)) r
  countEv (setF i (fd o) (BitVec.ofNat 64 w.1)) w.2

/-- Every binary64 operation but FCVT retires so. -/
theorem actUp_f64Eff {s : State} {u : UnitId} {c : Nat} (h : Executes s u c) {o : Ops} {legal : Ops → Bool}
    (hl : legal o = true) (op : Nat) (f : FVal → FVal → FVal → FRes) :
    let i := img s.blk c u
    actUp (f64Eff op legal f u o) s =
      .next (ran s c u (f64Rounded i o (f (fval i (fa o)) (fval i (fb o)) (fval i (fc o))))) :=
  actUp_issue_retire h _ hl fun i => f64Rounded i o (f (fval i (fa o)) (fval i (fb o)) (fval i (fc o)))

/-- FCVT retires with the image that its form gives (R145). -/
theorem actUp_fcvtEff {s : State} {u : UnitId} {c : Nat} (h : Executes s u c) {o : Ops} (hl : legalFcvt o = true) :
    actUp (fcvtEff u o) s = .next (ran s c u (fcvtApply (img s.blk c u) o)) :=
  actUp_issue_retire h _ hl fun i => fcvtApply i o

/-- Settles O5: each instruction is the shared effect with its own operation, and FCVT has its own image. -/
theorem binary64Results : Obligations.Binary64Results := by
  intro s u c o h
  refine ⟨fun hl => ⟨?_, ?_, ?_, ?_⟩, fun hl => ?_, fun hl => ?_, fun hl => ⟨?_, ?_⟩, fun hl => actUp_fcvtEff h hl⟩
  all_goals exact actUp_f64Eff h hl _ _

end Sys2Proof.Machine
end

section
/-!
The lane unit's tensor instructions: the shared effect, issued by a tile that executes (R109, R168), and the value that
each lane instruction writes for an element it covers (R177, R178, R185).
-/
namespace Sys2Proof.Machine

/-! ### Instructions that complete -/

/-- A command whose effect is a legal tensor instruction that raises no exception of its own, and in whose way nothing
stands, completes. -/
theorem actUp_tensorEff {s : State} {u : UnitId} {c : Nat} (h : Executes s u c) {f : Block → Block} {op : Nat} {o : Ops}
    {legal : Bool} {array : ArrayOp} {exc : Nat → UnitImg → Option (Nat × U64)}
    {reads writes : Nat → UnitImg → List (U64 × Nat)} {run : Nat → UnitImg → Block → TOut × UnitImg}
    (hf : f s.blk = tensorEff u op o legal array s.blk exc reads writes run) (hu : isTile u = true) (hl : legal = true)
    (he : exc c (img s.blk c u) = none)
    (hr : TensorReady s.blk c u op o (array.blocks (img s.blk c u)) (reads c (img s.blk c u))
      (writes c (img s.blk c u))) :
    actUp f s = .next (tensored s c u op o (array.blocks (img s.blk c u)) (reads c (img s.blk c u))
      (run c (img s.blk c u))) := by
  rw [actUp_next f s h.1, hf, hl, tensorEff_ready s u c h op o array exc reads writes run hu he hr]
  rfl

/-- What a roll reads and what it writes: the scale record of td, where td names one (R66). -/
def rollRange (o : Ops) (_ : Nat) (i : UnitImg) : List (U64 × Nat) :=
  if (rollRecord i o).1 = 0 then [] else [((rollRecord i o).1, 5120)]

/-- The roll form is a tensor instruction of that range. -/
theorem rollEff_eq (u : UnitId) (o : Ops) (b : Block) :
    rollEff u o b =
      tensorEff u 0x01 o (legalRoll o) noArray b (fun _ _ => none) (rollRange o) (rollRange o) (rollRun o) := rfl

/-- Settles O16: each instruction is the shared effect with its own reads, writes and products. -/
theorem laneInstructionsComplete : Obligations.LaneInstructionsComplete := by
  intro s t c o h
  refine ⟨fun hl hr => ?_, fun hl hr => ?_, fun hl hr => ?_, fun hl hr => ?_, fun hl hr => ?_⟩
  · exact (actUp_tensorEff (f := cvtEff (.tile t) o) h rfl rfl hl rfl hr :)
  · exact (actUp_tensorEff h (rollEff_eq (.tile t) o s.blk) rfl hl rfl hr :)
  · exact (actUp_tensorEff (f := ewuEff (.tile t) o) h rfl rfl hl rfl hr :)
  · exact (actUp_tensorEff (f := ewbEff (.tile t) o) h rfl rfl hl rfl hr :)
  · exact (actUp_tensorEff (f := tredEff (.tile t) o) h rfl rfl hl rfl hr :)

/-! ### Values of covered elements -/

/-- An element is covered when it lies below the extent of every axis (R530). -/
theorem inCover_iff (v : Cover) (k : Coord) :
    inCover v k = true ↔ k.x < v.x ∧ k.y < v.y ∧ k.p < v.p ∧ k.q < v.q := by
  simp [inCover, and_assoc]

/-- No events are the right unit of adding events. -/
theorem evAdd_empty (e : Ev) : evAdd e {} = e := by
  simp [evAdd]

/-- Settles O17: each run decides coverage by a check that is this condition (R530), and outside dropout
no clamps of dropout's operands count. -/
theorem laneElementValues : Obligations.LaneElementValues := by
  intro b u c i o
  refine ⟨?_, fun hfn => ?_, ?_⟩
  · simp only [cvtRun, inCover_iff, evAdd_empty]
  · simp only [ewuRun, if_neg hfn, inCover_iff, Nat.add_zero]
  · simp only [mskxRun, mskxMode, inCover_iff]

end Sys2Proof.Machine
end

section
/-!
The copy instructions and the spoil heap (R88 to R98, R184, R185, R188, R189): the seams and the heap room that
keep their exceptions away, and their completion.
-/
namespace Sys2Proof.Machine

/-! ### Room in the spoil heap -/

/-- A view whose push ends at or below HEAP.LIMIT is not over it (R188). -/
theorem pushOver_eq_false {b : Block} {c : Nat} {u : UnitId} {i : UnitImg} {o : Ops}
    (hfit : (readHeap b c u i o).top.toNat + heapSize b c i (tsOf i o).1 ≤ (readHeap b c u i o).limit.toNat) :
    pushOver b c u i o = false :=
  decide_eq_false (Nat.not_lt.mpr hfit)

/-- A view whose pop stays at or above HEAP.BASE is not under it (R189). -/
theorem popUnder_eq_false {b : Block} {c : Nat} {u : UnitId} {i : UnitImg} {o : Ops}
    (hfit : (readHeap b c u i o).base.toNat + heapSize b c i (tdOf i o).1 ≤ (readHeap b c u i o).top.toNat) :
    popUnder b c u i o = false :=
  decide_eq_false (Nat.not_lt.mpr hfit)

/-- A push that fits reads the heap record, the view's scale record, its setts and their scales. -/
theorem hpushReads_of_fits {b : Block} {u : UnitId} {o : Ops} {c : Nat} {i : UnitImg}
    (hfit : pushOver b c u i o = false) :
    hpushReads b u o c i = heapRecord b u i o ++ recordRange (tsOf i o).1 ++
      (viewRanges (tsOf i o).1 ++ heapArray b c i (tsOf i o).1) := by
  simp [hpushReads, hfit]

/-- A pop that fits reads the heap record, the view's scale record, the top of the heap and the map of the setts. -/
theorem hpopReads_of_fits {b : Block} {u : UnitId} {o : Ops} {c : Nat} {i : UnitImg}
    (hfit : popUnder b c u i o = false) :
    hpopReads b u o c i = heapRecord b u i o ++ recordRange (tdOf i o).1 ++
      (((readHeap b c u i o).top - BitVec.ofNat 64 (heapSize b c i (tdOf i o).1), heapSize b c i (tdOf i o).1) ::
        mapReads b u (tdOf i o).1) := by
  simp [hpopReads, hfit]

/-! ### Completion -/

@[simp] theorem noArray_blocks (i : UnitImg) : noArray.blocks i = 0 := rfl

/-- SCTA whose seams fit raises no exception of its own and completes (R91, R122). -/
theorem actUp_sctaEff {s : State} {u : UnitId} {c : Nat} {o : Ops} (h : Executes s u c) (hu : isTile u = true)
    (hl : legalScta o = true) (hseams : seamsLack (img s.blk c u) (sctaNeed s.blk c u (img s.blk c u) o) = false)
    (hr : TensorReady s.blk c u 0x0B o 0 (sctaReads s.blk u o c (img s.blk c u))
      (rangesOfList o (img s.blk c u) (destRanges s.blk c (img s.blk c u) (tdOf (img s.blk c u) o).1))) :
    actUp (sctaEff u o) s = .next (tensored s c u 0x0B o 0 (sctaReads s.blk u o c (img s.blk c u))
      fun v => spilled (img s.blk c u) (sctaNeed v c u (img s.blk c u) o) (sctaRun u o c (img s.blk c u) v)) :=
  (actUp_tensorEff (f := sctaEff u o) h rfl hu hl (by simp [hseams]) hr :)

/-- A push that fits completes (R188). -/
theorem actUp_hpushEff {s : State} {u : UnitId} {c : Nat} {o : Ops} (h : Executes s u c) (hu : isTile u = true)
    (hl : legalHpush o = true) (hfit : pushOver s.blk c u (img s.blk c u) o = false)
    (hr : TensorReady s.blk c u 0x0C o 0 (hpushReads s.blk u o c (img s.blk c u))
      [((readHeap s.blk c u (img s.blk c u) o).top,
        heapSize s.blk c (img s.blk c u) (tsOf (img s.blk c u) o).1)]) :
    actUp (hpushEff u o) s = .next (tensored s c u 0x0C o 0 (hpushReads s.blk u o c (img s.blk c u))
      (hpushRun u o c (img s.blk c u))) :=
  (actUp_tensorEff (f := hpushEff u o) h rfl hu hl (by simp [hfit]) (by simpa [hfit] using hr) :)

/-- A pop that fits completes (R189). -/
theorem actUp_hpopEff {s : State} {u : UnitId} {c : Nat} {o : Ops} (h : Executes s u c) (hu : isTile u = true)
    (hl : legalHpop o = true) (hfit : popUnder s.blk c u (img s.blk c u) o = false)
    (hr : TensorReady s.blk c u 0x0D o 0 (hpopReads s.blk u o c (img s.blk c u))
      (viewRanges (tdOf (img s.blk c u) o).1 ++ heapArray s.blk c (img s.blk c u) (tdOf (img s.blk c u) o).1)) :
    actUp (hpopEff u o) s = .next (tensored s c u 0x0D o 0 (hpopReads s.blk u o c (img s.blk c u))
      (hpopRun u o c (img s.blk c u))) :=
  (actUp_tensorEff (f := hpopEff u o) h rfl hu hl (by simp [hfit]) (by simpa [hfit] using hr) :)

/-- Settles O18: six instructions raise no exception of their own, SCTA's seams fit, and a push or pop that fits reads and
writes all that its view takes. -/
theorem copyInstructionsComplete : Obligations.CopyInstructionsComplete := by
  intro s t c o h
  refine ⟨fun hl hr => ?_, fun hl hr => ?_, fun hl hr => ?_, fun hl hr => ?_, fun hl hr => ?_, fun hl hr => ?_,
    fun hl hseams hr => ?_, fun hl hfit hr => ?_, fun hl hfit hr => ?_⟩
  · exact (actUp_tensorEff (f := mskpEff (.tile t) o) h rfl rfl hl rfl hr :)
  · exact (actUp_tensorEff (f := mskxEff (.tile t) o) h rfl rfl hl rfl hr :)
  · exact (actUp_tensorEff (f := txpEff (.tile t) o) h rfl rfl hl rfl hr :)
  · exact (actUp_tensorEff (f := movbEff (.tile t) o) h rfl rfl hl rfl hr :)
  · exact (actUp_tensorEff (f := gthEff (.tile t) o) h rfl rfl hl rfl hr :)
  · exact (actUp_tensorEff (f := sctEff (.tile t) o) h rfl rfl hl rfl hr :)
  · exact actUp_sctaEff h rfl hl hseams hr
  · have hover := pushOver_eq_false hfit
    rw [← hpushReads_of_fits hover] at hr ⊢
    exact actUp_hpushEff h rfl hl hover hr
  · have hunder := popUnder_eq_false hfit
    rw [← hpopReads_of_fits hunder] at hr ⊢
    exact actUp_hpopEff h rfl hl hunder hr

end Sys2Proof.Machine
end

section
/-!
Register writes by the rows of single registers (R132, R438, R439, R442 to R445): what a write to a block comes to, and
the two halves of the guarded pair of CHIP_POLICY.
-/
namespace Sys2Proof.Machine

/-! ### A write to a block that is there -/

/-- A register write at an aligned offset of a block is that block's write. -/
theorem actUp_regWrite {s : State} (h : Up s) {n o : Nat} (hn : blkAt s.blk n ≠ .none) (ho : o < 0x10000)
    (h4 : o % 4 = 0) (v : U32) :
    actUp (regWrite (ctlAddr n o) v) s = .next (became s (Wr.block (blkWrite s.blk n o v))) := by
  rw [actUp_next _ s h, regWrite_ctlAddr _ n o v (blkAt_lt _ n hn) ho h4]

/-- With no half of a pair pending, a write that is neither common nor shadowed leaves what its kind of block's own
write leaves. -/
theorem actUp_regWrite_plain {s : State} (h : Up s) {n o : Nat} {k : Blk} (hk : blkAt s.blk n = k) (hn : k ≠ .none)
    (hq : (blkOf s.blk n).pair = none) (ho : o < 0xFFF0) (h4 : o % 4 = 0) {v : U32} (hs : shadowFix k o v = none)
    {d : Block} (hd : Wr.block (plainWrite s.blk n o v k) = d) :
    actUp (regWrite (ctlAddr n o) v) s = .next (became s d) := by
  rw [actUp_regWrite h (by rwa [hk]) (by omega) h4,
    blkWrite_plain s.blk n o v k hk hn hq (by omega) (by omega) hs, hd]

/-! ### Shadows and strobes -/

/-- UPD.GO applies the block's shadows (R443). -/
theorem exec_updGo {s : State} (h : Up s) {n : Nat} (hq : (blkOf s.blk n).pair = none) (hn : blkAt s.blk n ≠ .none) :
    exec (.updGo n) s = .next (became s (applyBlk s.blk n)) := by
  have hexec : exec (.updGo n) s = actUp (regWrite (ctlAddr n 0xFFF4) 1) s := rfl
  rw [hexec, actUp_regWrite h hn (by norm_num) (by norm_num), blkWrite_go s.blk n hn hq]
  rfl

/-- A write of a shadowed register waits, its clamps counted (R442, R447). -/
theorem exec_registerWrite_shadow {s : State} (h : Up s) {n o : Nat} {v : U32} {r : U32 × Nat}
    (hq : (blkOf s.blk n).pair = none) (hn : blkAt s.blk n ≠ .none) (ho : o < 0x10000) (h4 : o % 4 = 0)
    (hgroup : o ≠ 0xFFF0) (hgo : o ≠ 0xFFF4) (hs : shadowFix (blkAt s.blk n) o v = some r) :
    exec (.registerWrite (ctlAddr n o) v) s = .next (became s (blkClamp
      (setBlk s.blk n { blkOf s.blk n with shadow := tins (blkOf s.blk n).shadow o r.1, pending := true }) n r.2)) := by
  have hexec : exec (.registerWrite (ctlAddr n o) v) s = actUp (regWrite (ctlAddr n o) v) s := rfl
  rw [hexec, actUp_regWrite h hn ho h4, blkWrite_shadow s.blk n o v r hn hq hgroup hgo hs]
  rfl

/-- The groups that a strobe names are the low 16 bits (R443). -/
theorem strobe_setWidth (b : Block) (fire : BitVec 16) : strobe b (fire.setWidth 32) =
    ((b.blks.filter fun e => e.2.join && fire.getLsbD e.2.group.toNat).map Prod.fst).foldl applyBlk b := by
  have hgroup (g : BitVec 4) : (fire.setWidth 32).getLsbD g.toNat = fire.getLsbD g.toNat := by
    simp only [BitVec.getLsbD_setWidth, Bool.and_eq_right_iff_imp, decide_eq_true_eq]
    omega
  simp only [strobe, hgroup]

theorem exec_groupStrobe {s : State} (h : Up s) (hq : (blkOf s.blk 0).pair = none) (fire : BitVec 16) :
    exec (.groupStrobe fire) s = .next (became s
      (((s.blk.blks.filter fun e => e.2.join && fire.getLsbD e.2.group.toNat).map Prod.fst).foldl applyBlk s.blk)) :=
  actUp_regWrite_plain h (n := chipBlk) (o := 0x10) (blkAt_chip s.blk) nofun hq (by decide) rfl rfl
    (strobe_setWidth s.blk fire)

theorem exec_chipEventClear {s : State} (h : Up s) (hq : (blkOf s.blk 0).pair = none) (v : U32) :
    exec (.chipEventClear false v) s =
      .next (became s { s.blk with chipEvent := s.blk.chipEvent &&& ~~~ v }) :=
  actUp_regWrite_plain h (n := chipBlk) (o := 8) (blkAt_chip s.blk) nofun hq (by decide) rfl rfl rfl

/-! ### The guarded pair of CHIP_POLICY (R444 to R446) -/

/-- While no pending half's window is used up, either half is a write of the policy. -/
theorem regWrite_policy {b : Block} {o : Nat} (ho : o = 0x20 ∨ o = 0x24) (hw : expirePair b 0 = b) (v : U32) :
    regWrite (ctlAddr chipBlk o) v b = Wr.block (policyWrite b o v) := by
  rw [regWrite_ctlAddr b chipBlk o v (by decide) (by omega) (by omega)]
  obtain rfl | rfl := ho <;> simp [blkWrite, chipBlk, blkAt_chip, hw, shadowFix, plainWrite, chipWrite]

/-- The chip block once a first half has been pending and is so no longer. -/
def pairTaken (b : Block) (x : U32) : Block := setPair (setPair b chipBlk (some (0x20, x, 64))) chipBlk none

@[simp] theorem blkOf_setPair (b : Block) (n : Nat) (p : Option (Nat × U32 × Nat)) :
    blkOf (setPair b n p) n = { blkOf b n with pair := p } := blkOf_setBlk_self b n _

theorem pairTaken_pair (b : Block) (x : U32) : (blkOf (pairTaken b x) 0).pair = none :=
  congrArg BlkCommon.pair (blkOf_setPair _ chipBlk none)

/-- Unlocked, a first half waits for its second. -/
theorem policyWrite_first {b : Block} (hq : (blkOf b 0).pair = none) (hl : b.chip.locks.getLsbD 0 = false) (x : U32) :
    policyWrite b 0x20 x = (setPair b chipBlk (some (0x20, x, 64)), 0) := by
  rw [policyWrite, hl]
  simp [pairFirst, chipBlk, hq]

/-- Its complement completes it, anything else discards it. -/
theorem policyWrite_second {b : Block} {x : U32} {k : Nat} (hp : (blkOf b 0).pair = some (0x20, x, k))
    (hl : b.chip.locks.getLsbD 0 = false) (y : U32) : Wr.block (policyWrite b 0x24 y) =
      if y = ~~~ x then setPolicy (setPair b chipBlk none) x else guardDrop (setPair b chipBlk none) chipBlk 0x20 := by
  rw [policyWrite, hl]
  by_cases hy : y = ~~~ x <;> simp [pairSecond, chipBlk, hp, hy, Wr.block]

/-- Under the policy's lock each half is refused. -/
theorem policyWrite_locked {b : Block} (hl : b.chip.locks.getLsbD 0 = true) (o : Nat) (v : U32) :
    policyWrite b o v = (guardDrop b chipBlk 0x20, 0) := by
  rw [policyWrite, if_pos hl]

/-- Unlocked, the pair takes effect where the second half is the complement of the first, else it is discarded. -/
theorem guardedPair_unlocked {b : Block} (hq : (blkOf b 0).pair = none) (hl : b.chip.locks.getLsbD 0 = false)
    (x y : U32) : guardedPair x y b =
      if y = ~~~ x then setPolicy (pairTaken b x) x else guardDrop (pairTaken b x) chipBlk 0x20 := by
  have hfirst : regWrite (ctlAddr chipBlk 0x20) x b = setPair b chipBlk (some (0x20, x, 64)) := by
    rw [regWrite_policy (.inl rfl) (expirePair_quiet b 0 hq), policyWrite_first hq hl]
    rfl
  have hpair : (blkOf (setPair b chipBlk (some (0x20, x, 64))) 0).pair = some (0x20, x, 64) :=
    congrArg BlkCommon.pair (blkOf_setPair b chipBlk _)
  rw [guardedPair, hfirst, regWrite_policy (.inr rfl) (by simp [expirePair, hpair]), policyWrite_second hpair hl]
  rfl

/-- Locked, both halves are refused. -/
theorem guardedPair_locked {b : Block} (hq : (blkOf b 0).pair = none) (hl : b.chip.locks.getLsbD 0 = true) (x y : U32) :
    guardedPair x y b = guardDrop (guardDrop b chipBlk 0x20) chipBlk 0x20 := by
  have hfirst : regWrite (ctlAddr chipBlk 0x20) x b = guardDrop b chipBlk 0x20 := by
    rw [regWrite_policy (.inl rfl) (expirePair_quiet b 0 hq), policyWrite_locked hl]
    rfl
  rw [guardedPair, hfirst, regWrite_policy (.inr rfl) (expirePair_quiet (guardDrop b chipBlk 0x20) 0 hq),
    policyWrite_locked (b := guardDrop b chipBlk 0x20) hl]
  rfl

theorem exec_guardedPairWrite {s : State} (h : Up s) (x y : U32) :
    exec (.guardedPairWrite x y) s = .next (became s (guardedPair x y s.blk)) := actUp_next _ s h

/-! ### A window used up, and counters (R132, R444) -/

theorem exec_guardWindowExpiry {s : State} (h : Up s) {n a : Nat} {v : U32}
    (hp : (blkOf s.blk n).pair = some (a, v, 0)) :
    exec (.guardWindowExpiry n) s = .next (became s (guardDrop (setPair s.blk n none) n a)) :=
  (actUp_next (guardExpiry n) s h).trans (by simp only [guardExpiry, expirePair, hp])

theorem exec_counterLowRead {s : State} (h : Up s) {l : Nat} {x : U64} (hx : counter64 s.blk (l / 4 * 4) = some x) :
    exec (.counterLowRead l) s = .next (became s
      { s.blk with latches := tins s.blk.latches (spaceOff (l / 4 * 4) / 4 + 1) (hiWord x) }) :=
  (actUp_next (counterLowRead l) s h).trans (by simp only [counterLowRead, latchLow, hx])

/-- Settles O49: each row is a write of its register, and a guarded pair two of them. -/
theorem registerWrites : Obligations.RegisterWrites := by
  intro s h
  refine ⟨fun n hq hn => ⟨exec_updGo h hq hn, fun o v r ho h4 hgroup hgo hs =>
    exec_registerWrite_shadow h hq hn ho h4 hgroup hgo hs⟩, fun hq => ⟨exec_groupStrobe h hq,
    exec_chipEventClear h hq, fun x y hl => ?_, fun x y hl => ?_⟩, fun n a v hp => exec_guardWindowExpiry h hp,
    fun l x hx => exec_counterLowRead h hx⟩
  · refine ⟨_, exec_guardedPairWrite h x y, ?_⟩
    rw [guardedPair_unlocked hq hl]
    by_cases hy : y = ~~~ x
    · rw [if_pos hy]
      exact ⟨pairTaken_pair s.blk x, fun _ => ⟨rfl, rfl⟩, absurd hy⟩
    · rw [if_neg hy]
      exact ⟨pairTaken_pair s.blk x, fun hc => absurd hc hy, fun _ => ⟨rfl, rfl⟩⟩
  · refine ⟨_, exec_guardedPairWrite h x y, ?_⟩
    rw [guardedPair_locked hq hl]
    exact ⟨rfl, rfl⟩

end Sys2Proof.Machine
end

section
/-!
The control bits of tiles, Derricks, Reckoners and memory controllers (R130, R263, R287, R386, R441).
-/
namespace Sys2Proof.Machine

/-! ### Which bits a masked write of one bit sets (R441) -/

@[simp] theorem onBit_bitWrite_same (x : Bool) (f : Bool → Block → Block) (b : Block) :
    onBit (bitWrite 0 x) 0 f b = f x b := by
  rw [onBit, (maskBit_bitWrite_0 x).1]

@[simp] theorem onBit_bitWrite_other (x : Bool) (f : Bool → Block → Block) (b : Block) :
    onBit (bitWrite 1 x) 0 f b = b := by
  rw [onBit, (maskBit_bitWrite_1 x).1]

@[simp] theorem onSet_bitWrite_0 (f : Block → Block) (b : Block) : onSet (bitWrite 0 true) 0 f b = f b := by
  rw [onSet, (maskBit_bitWrite_0 true).1, if_pos rfl]

@[simp] theorem onSet_bitWrite_1 (f : Block → Block) (b : Block) : onSet (bitWrite 1 true) 1 f b = f b := by
  rw [onSet, (maskBit_bitWrite_1 true).2.1, if_pos rfl]

@[simp] theorem onSet_bitWrite_other (x : Bool) (f : Block → Block) (b : Block) : onSet (bitWrite 0 x) 1 f b = b := by
  rw [onSet, (maskBit_bitWrite_0 x).2.1, if_neg (by simp)]

/-! ### Tiles -/

section
variable {s : State} (h : Up s) {t : Fin 1152} (ht : tilePresent s.blk t.val = true)
  (hq : (blkOf s.blk (0x10000 + t.val)).pair = none)
include h ht hq

theorem exec_tileCtrlHalt (x : Bool) :
    exec (.tileCtrlHalt t x) s = .next (became s (tileHalt t.val x s.blk)) :=
  actUp_regWrite_plain h (blkAt_tile s.blk t ht) nofun hq (by decide) rfl rfl (by simp [plainWrite, Wr.block])

theorem exec_tileReset : exec (.tileReset t) s = .next (became s (tileReset t.val s.blk)) :=
  actUp_regWrite_plain h (blkAt_tile s.blk t ht) nofun hq (by decide) rfl rfl (by simp [plainWrite, Wr.block])

end

/-- A tile that runs again while no context does only loses its HALT. -/
theorem tileHalt_false_idle {b : Block} {t : Nat} (ht : tilePresent b t = true) (hr : b.running = none) :
    tileHalt t false b = setTileHw b t { tileHw b t with halt := false } := by
  simp [tileHalt, ht, hr]

/-- While a context runs, one that a reset left at its entry starts. -/
theorem tileHalt_false_running {b : Block} {t c : Nat} (ht : tilePresent b t = true) (hr : b.running = some c) :
    let on := setTileHw b t { tileHw b t with halt := false }
    let u := UnitId.tile (tile1152 t)
    tileHalt t false b = settleAll
      (if (img on c u).run = .halted ∧ (img on c u).started = false then startUnit c on u else on) := by
  simp [tileHalt, ht, hr]

/-- A tile's hardware once a reset has halted it and cleared its fault record (R130), its clock running (R126). -/
def resetHw (b : Block) (t : Nat) : TileHw :=
  { tileHw b t with
    halt := true, faultCause := 0, faultBank := 0, faultPc := 0, faultConf := false
    gateWake := if asleep b t then satAdd (tileHw b t).gateWake 1 else (tileHw b t).gateWake }

/-- A reset image: counters, operations under way, refusals and submission numbers stay (log 83). -/
def resetImg (i : UnitImg) : UnitImg :=
  { ({} : UnitImg) with cnt := i.cnt, ops := i.ops, refus := i.refus, subs := i.subs }

theorem tileReset_idle {b : Block} {t : Nat} (ht : tilePresent b t = true) (hr : b.running = none) :
    tileReset t b = setTileHw b t (resetHw b t) := by
  simp only [tileReset, ht, if_true, setTileHw_running, hr]
  rfl

/-- While a context runs, its image of the tile is reset too, and its wake taken. -/
theorem tileReset_running {b : Block} {t c : Nat} (ht : tilePresent b t = true) (hr : b.running = some c) :
    let u := UnitId.tile (tile1152 t)
    tileReset t b = setImg (takeWake (setTileHw b t (resetHw b t)) u) c u (resetImg (img b c u)) := by
  simp only [tileReset, ht, if_true, setTileHw_running, hr]
  rfl

/-! ### The units of a region -/

theorem blkAt_mc (b : Block) (k : Fin 12) : blkAt b (0x101 + 16 * k.val) = .mc k.val := by
  simpa using blkAt_region b k 1 (by norm_num)

theorem blkAt_reckoner (b : Block) (k : Fin 12) : blkAt b (0x102 + 16 * k.val) = .reckoner k.val := by
  simpa using blkAt_region b k 2 (by norm_num)

theorem blkAt_derrick (b : Block) (k : Fin 12) : blkAt b (0x103 + 16 * k.val) = .derrick k.val := by
  simpa using blkAt_region b k 3 (by norm_num)

section
variable {s : State} (h : Up s) {k : Fin 12}
include h

theorem exec_drkCtrlHalt (hq : (blkOf s.blk (0x103 + 16 * k.val)).pair = none) (x : Bool) :
    exec (.drkCtrlHalt k x) s = .next (became s (drkHalt k.val x s.blk)) :=
  actUp_regWrite_plain h (blkAt_derrick s.blk k) nofun hq (by decide) rfl rfl (by simp [plainWrite, Wr.block])

theorem exec_drkCtrlReset (hq : (blkOf s.blk (0x103 + 16 * k.val)).pair = none) :
    exec (.drkCtrlReset k) s = .next (became s (drkReset k.val s.blk)) :=
  actUp_regWrite_plain h (blkAt_derrick s.blk k) nofun hq (by decide) rfl rfl (by simp [plainWrite, Wr.block])

theorem exec_drkForceWrite (hq : (blkOf s.blk (0x103 + 16 * k.val)).pair = none) (v : U32) :
    exec (.drkForceWrite k v) s = .next (became s (Wr.block (drkForce k.val v s.blk))) :=
  actUp_regWrite_plain h (blkAt_derrick s.blk k) nofun hq (by decide) rfl rfl (by simp [plainWrite])

theorem exec_rckCtrlHalt (hq : (blkOf s.blk (0x102 + 16 * k.val)).pair = none) (x : Bool) :
    exec (.rckCtrlHalt k x) s = .next (became s (rckHalt k.val x s.blk)) :=
  actUp_regWrite_plain h (blkAt_reckoner s.blk k) nofun hq (by decide) rfl rfl (by simp [plainWrite, Wr.block])

theorem exec_mcCtrlFlush (hq : (blkOf s.blk (0x101 + 16 * k.val)).pair = none) :
    exec (.mcCtrlFlush k) s = .next (became s (mcFlush k.val s.blk)) :=
  actUp_regWrite_plain h (blkAt_mc s.blk k) nofun hq (by decide) rfl rfl (by simp [plainWrite, Wr.block])

end

/-- DRK_FORCE is the running context's while it replays. -/
theorem drkForce_replaying {b : Block} {c : Nat} (hr : b.running = some c) (hc : (ctxOf b c).replay = true) (k : Nat)
    (v : U32) : Wr.block (drkForce k v b) = setRound b c k fun y => { y with force := v &&& 0x3FFFFFF } := by
  simp [drkForce, replaying, hr, hc, Wr.block]

/-- Otherwise a write of it is ignored and counted. -/
theorem drkForce_ignored {b : Block} (h : ∀ c, b.running = some c → (ctxOf b c).replay = false) (k : Nat) (v : U32) :
    Wr.block (drkForce k v b) = blkClamp b (0x103 + 16 * k) 1 := by
  have hreplay : replaying b = false := by
    cases hr : b.running with
    | none => simp [replaying, hr]
    | some c => simp [replaying, hr, h c hr]
  simp [drkForce, hreplay, ignored, Wr.block]

/-- Settles O47: each row is the write of one control bit of its block, or of DRK_FORCE. -/
theorem unitControlRegisters : Obligations.UnitControlRegisters := by
  intro s h
  refine ⟨fun t ht hq => ?_, fun k hq => ?_, fun k hq => ?_, fun k hq => exec_mcCtrlFlush h hq⟩
  · simp only [exec_tileCtrlHalt h ht hq, exec_tileReset h ht hq]
    refine ⟨?_, fun hr => ⟨?_, ?_⟩, fun c hr => ⟨?_, ?_⟩⟩
    · simp [tileHalt, ht]
    · rw [tileHalt_false_idle ht hr]
    · rw [tileReset_idle ht hr]
      rfl
    · rw [tileHalt_false_running ht hr]
    · rw [tileReset_running ht hr]
      rfl
  · refine ⟨exec_drkCtrlHalt h hq true, exec_drkCtrlHalt h hq false, exec_drkCtrlReset h hq, fun v => ?_⟩
    rw [exec_drkForceWrite h hq v]
    exact ⟨fun c hr hc => by rw [drkForce_replaying hr hc]; rfl, fun hno => by rw [drkForce_ignored hno]⟩
  · exact ⟨exec_rckCtrlHalt h hq true, exec_rckCtrlHalt h hq false⟩

end Sys2Proof.Machine
end

section
/-!
The short-vector memory instructions and VRED (R119, R142, R148, R150): how many elements they take, what they leave
when nothing stands in their way, and that a store changes no unit.
-/
namespace Sys2Proof.Machine

/-! ### What a store leaves of the units -/

@[simp] theorem wrKey_units (b : Block) (k : Nat) (x : Byte) : (wrKey b k x).units = b.units := by
  simpa using congrArg Block.units (wrKey_frame b k x)

@[simp] theorem wrList_units (b : Block) (k : Nat) (l : List Byte) : (wrList b k l).units = b.units := by
  induction l generalizing b k with
  | nil => rfl
  | cons x l ih => rw [wrList, ih, wrKey_units]

@[simp] theorem sendWakes_units (b : Block) (k n : Nat) : (sendWakes b k n).units = b.units := by
  unfold sendWakes
  split <;> rfl

@[simp] theorem wrKeys_units (b : Block) (k : Nat) (l : List Byte) : (wrKeys b k l).units = b.units := by
  simp [wrKeys, dropErr]

@[simp] theorem takeWord_units (b : Block) (w : Nat) (d : BitVec 128) : (takeWord b w d).units = b.units := by
  simp only [takeWord]
  split <;> simp

@[simp] theorem countErr_units (b : Block) (k : Nat) (bad : Bool) : (countErr b k bad).units = b.units := by
  simp only [countErr]
  split <;> rfl

theorem readErr_units (x : Block × Option Nat) (w : Nat) (e : BitVec 144) : (readErr x w e).1.units = x.1.units := by
  unfold readErr
  split <;> simp

/-- Words that the memory code corrects or counts change no unit. -/
@[simp] theorem readErrs_units (b : Block) (l : Tbl (BitVec 144)) : (readErrs b l).1.units = b.units := by
  suffices hfold : ∀ x : Block × Option Nat, (l.foldl (fun x e => readErr x e.1 e.2) x).1.units = x.1.units from
    hfold (b, none)
  induction l with
  | nil => exact fun _ => rfl
  | cons e l ih => exact fun x => (ih _).trans (readErr_units x e.1 e.2)

@[simp] theorem mergeRead_units (b : Block) (k n : Nat) : (mergeRead b k n).1.units = b.units := by
  unfold mergeRead
  split <;> simp

@[simp] theorem mcCount_units (b : Block) (l n : Nat) (write : Bool) : (mcCount b l n write).units = b.units := by
  unfold mcCount
  split
  · rfl
  · split <;> rfl

@[simp] theorem cacheUse_units (b : Block) (l n : Nat) (write : Bool) : (cacheUse b l n write).units = b.units := by
  unfold cacheUse
  split
  · dsimp only
    split <;> rfl
  · rfl

@[simp] theorem blkClamp_units (b : Block) (k n : Nat) : (blkClamp b k n).units = b.units := by
  unfold blkClamp
  split <;> rfl

theorem writeMem_units {b : Block} {k : Nat} {x : List Byte} (hmet : (mergeRead b k x.length).2 = none) (l : Nat) :
    (writeMem b k l x).1.units = b.units := by
  simp [writeMem, hmet]

/-- A store that no uncorrectable word refuses changes no unit. -/
theorem storeOwn_units {b : Block} {c : Nat} {a : U64} {x : List Byte} (hmet : storeMet b c a x.length = none) :
    (storeOwn b c a x).units = b.units := by
  unfold storeMet at hmet
  unfold storeOwn
  cases hw : whereIs b c a with
  | mem k =>
    rw [hw] at hmet
    exact writeMem_units hmet (faLocal a)
  | ctl l => exact blkClamp_units b (blkIndex l) 1
  | remote => rfl
  | bad => rfl

theorem img_storeOwn {b : Block} {c : Nat} {a : U64} {x : List Byte} (hmet : storeMet b c a x.length = none) (k : Nat)
    (u : UnitId) : img (storeOwn b c a x) k u = img b k u := by
  rw [img, storeOwn_units hmet, ← img]

/-- Then the store is all that storing to this module does. -/
theorem storeBytes_own {b : Block} {c : Nat} {u : UnitId} {a : U64} {x : List Byte} (hown : faModule a = b.geo.own)
    (hmet : storeMet b c a x.length = none) : storeBytes b c u a x = storeOwn b c a x := by
  simp [storeBytes, hown, hmet]

@[simp] theorem img_svuTouch (b : Block) (v : UnitId) (c : Nat) (u : UnitId) :
    img (svuTouch b v) c u = img b c u := by
  cases v <;> rfl

/-- With no remote write open the instruction retires, its access behind it; counted events open none. -/
theorem retireAfter_of_accessDone {b : Block} {c : Nat} {u : UnitId} {w : U64} {i : UnitImg} {e : Ev}
    (h : accessDone i = true) : retireAfter b c u w (countEv i e) = retire b c u (accessed (countEv i e)) :=
  if_pos h

/-! ### How many elements (R146) -/

/-- n = min(vl, 128 ÷ w). -/
def vElems (i : UnitImg) (f : Fmt) : Nat := min i.vl.toNat (128 / fmtWidth f)

/-- The clamp of a vl above 128 ÷ w (R154). -/
def vOver (i : UnitImg) (f : Fmt) : Nat := if 128 / fmtWidth f < i.vl.toNat then 1 else 0

theorem vCount_eq (i : UnitImg) (f : Fmt) : vCount i f = (vElems i f, vOver i f) := by
  unfold vCount vMax vElems vOver
  split
  · rw [min_eq_left ‹_›, if_neg (by omega)]
  · rw [min_eq_right (by omega), if_pos (by omega)]

/-! ### The instructions -/

/-- The bytes that VLD reads. -/
def vLoadLen (i : UnitImg) (o : Ops) : Nat :=
  let es := fmtWidth (vFmt o) / 8
  if bit o 25 then (if vElems i (vFmt o) = 0 then 0 else es) else vElems i (vFmt o) * es

theorem vLoadLen_eq (i : UnitImg) (o : Ops) : vLoadLen i o =
    if bit o 25 then (if vElems i (vFmt o) = 0 then 0 else fmtWidth (vFmt o) / 8)
    else vElems i (vFmt o) * (fmtWidth (vFmt o) / 8) := rfl

/-- The image once VLD has put `x` into v[d]: the element it begins with into each of them, where one element is
broadcast. -/
def vLoaded (i : UnitImg) (o : Ops) (x : List Byte) : UnitImg :=
  let f := vFmt o
  let es := fmtWidth f / 8
  countEv (accessed (setV i (fd o) ((List.range (vElems i f)).foldl (fun d j =>
    vSetElem f d j (leNat ((x.drop (if bit o 25 then 0 else j * es)).take es))) (vreg i (fd o)))))
    (evClamps (vOver i f))

/-- What VLD leaves, by what its read met. -/
def vLoad (c : Nat) (u : UnitId) (i : UnitImg) (o : Ops) : ReadOut → Block
  | .ok b1 => retire b1 c u (vLoaded i o (loadedBytes b1 c i (vAddr i o) (vLoadLen i o)))
  | .refused b1 => retire b1 c u (countRefusal (vLoaded i o (List.replicate (vLoadLen i o) 0)) (vAddr i o) 6)
  | .tileFault b1 => b1

/-- The bytes that VST writes. -/
def vStored (i : UnitImg) (o : Ops) : List Byte :=
  (List.range (vElems i (vFmt o))).flatMap fun j =>
    leBytes (fmtWidth (vFmt o) / 8) (vElem (vFmt o) (vreg i (fd o)) j)

theorem length_vStored (i : UnitImg) (o : Ops) :
    (vStored i o).length = vElems i (vFmt o) * (fmtWidth (vFmt o) / 8) := by
  simp [vStored]

/-- The image once VRED has put the sum, the least or the greatest of the first n elements into element 0. -/
def vReduced (i : UnitImg) (o : Ops) : UnitImg :=
  let f := vFmt o
  let r := finish f (vMode o)
    (vReduce (bits o 24 2) ((List.range (vElems i f)).map fun j => fdecode f (vElem f (vreg i (fa o)) j)))
  countEv (setV i (fd o) (vSetElem f (vreg i (fd o)) 0 r.1)) (evAdd r.2 (evClamps (vOver i f)))

section
variable {s : State} {t : Fin 1152} {c : Nat} {o : Ops} (h : Executes s (.tile t) c)
include h

/-- A legal short-vector instruction of a tile that executes has its effect. -/
theorem actUp_tileIssue {f : Block → Block} {w : U64} {legal : Bool} (hl : legal = true) {e : Nat → UnitImg → Block}
    (hf : f s.blk = issue s.blk (.tile t) w (isTile (.tile t) && legal) e) :
    actUp f s = .next (became s (e c (img s.blk c (.tile t)))) := by
  rw [actUp_next f s h.1, hf, hl, isTile, Bool.and_self, issue_effect s (.tile t) c h]

theorem actUp_svIssue {f : Block → Block} {op : Nat} {legal : Ops → Bool} (hl : legal o = true)
    {e : Nat → UnitImg → Block → Block} (hf : f s.blk = svIssue s.blk (.tile t) op o legal e) :
    actUp f s = .next (became s (e c (img s.blk c (.tile t)) (svuTouch s.blk (.tile t)))) :=
  actUp_tileIssue h hl hf

variable {i : UnitImg} (hi : img s.blk c (.tile t) = i)
include hi

/-- VLD of mapped bytes that are there is what its read meets (R148). -/
theorem exec_vld (hl : legalVld o = true) (hmapped : badByte s.blk c (vAddr i o) (vLoadLen i o) = none)
    (hcome : missing s.blk c i (vAddr i o) (vLoadLen i o) = false) {r : ReadOut}
    (hread : meetRead (svuTouch s.blk (.tile t)) c (.tile t) (vAddr i o) (vLoadLen i o) = r) :
    exec (.vld (.tile t) o) s = .next (became s (vLoad c (.tile t) i o r)) := by
  subst hi hread
  refine (actUp_tileIssue (f := vldEff (.tile t) o) h hl rfl :).trans ?_
  simp only [vCount_eq, ← vLoadLen_eq, hmapped, hcome, Bool.false_eq_true, if_false]
  rfl

/-- VST of mapped bytes of this module, no word refusing it, is its store (R148). -/
theorem exec_vst (hl : legalVst o = true) (hmapped : badByte s.blk c (vAddr i o) (vStored i o).length = none)
    (hown : faModule (vAddr i o) = s.blk.geo.own)
    (hmet : storeMet (svuTouch s.blk (.tile t)) c (vAddr i o) (vStored i o).length = none)
    (hdone : accessDone i = true) :
    exec (.vst (.tile t) o) s = .next (became s (retire
      (storeOwn (svuTouch s.blk (.tile t)) c (vAddr i o) (vStored i o)) c (.tile t)
      (accessed (countEv i (evClamps (vOver i (vFmt o))))))) := by
  subst hi
  have hstore := storeBytes_own (u := .tile t) (b := svuTouch s.blk (.tile t)) hown hmet
  rw [length_vStored] at hmapped
  refine (actUp_tileIssue (f := vstEff (.tile t) o) h hl rfl :).trans ?_
  simp only [vCount_eq, hmapped]
  rw [← vStored, hstore, img_storeOwn hmet, img_svuTouch, retireAfter_of_accessDone hdone]

/-- VRED reduces the first n elements, or writes nothing where there are none (R150). -/
theorem exec_vred (hl : legalVred o = true) :
    exec (.vred (.tile t) o) s = .next (became s (retire (svuTouch s.blk (.tile t)) c (.tile t)
      (if vElems i (vFmt o) = 0 then countEv i (evClamps (vOver i (vFmt o))) else vReduced i o))) := by
  subst hi
  refine (actUp_svIssue (f := vredEff (.tile t) o) h hl rfl :).trans ?_
  simp only [vCount_eq]
  rw [apply_ite (retire (svuTouch s.blk (.tile t)) c (.tile t))]
  rfl

end

/-- Settles O15: n and its clamp are the count of R146; a load is what its read meets, a store changes no image. -/
theorem shortVectorMemoryAndReduction : Obligations.ShortVectorMemoryAndReduction := by
  refine ⟨fun s t c o h => ⟨fun hl hmapped hcome b1 => ⟨?_, ?_⟩, fun hl hmapped hown hmet hdone => ?_⟩,
    fun s t c o h hl => exec_vred h rfl hl⟩
  · exact exec_vld h rfl hl hmapped hcome
  · exact exec_vld h rfl hl hmapped hcome
  · have hlen := length_vStored (img s.blk c (.tile t)) o
    exact exec_vst h rfl hl (by rw [hlen]; exact hmapped) hown (by rw [hlen]; exact hmet) hdone

end Sys2Proof.Machine
end

section
/-!
MMA and the tally instructions (R120 to R122, R172 to R175, R190, R191): the seams that keep their exceptions away, and
their completion.
-/
namespace Sys2Proof.Machine

/-- What MMA reads: its sources, the accumulated output, and what its destination needs (R173). -/
def mmaReads (u : UnitId) (o : Ops) (b : Block) (c : Nat) (i : UnitImg) : List (U64 × Nat) :=
  sourceRanges b c i (tsOf i o).1 ++ sourceRanges b c i (tbOf i o).1 ++
    (if bit o 4 then viewRanges (tdOf i o).1 else []) ++ destReads b c u i (tdOf i o).1 (mmaMode o)

/-- What MMA writes: nothing where its output stays in a tally entry. -/
def mmaWrites (o : Ops) (b : Block) (c : Nat) (i : UnitImg) : List (U64 × Nat) :=
  if bits o 5 2 = 3 then [] else destRanges b c i (tdOf i o).1

/-- What TIE_ADD reads: its source, where the handle is open (log 23). -/
def tieAddReads (o : Ops) (b : Block) (c : Nat) (i : UnitImg) : List (U64 × Nat) :=
  if (tlook i.ties (bits o 2 6)).isSome then sourceRanges b c i (tsOf i o).1 else []

/-- The image once TIE_OPEN has discarded an old entry of its handle. -/
def tieDropped (i : UnitImg) (o : Ops) : UnitImg := { i with ties := tdel i.ties (bits o 2 6) }

/-- What TIE_OPEN computes: the empty entry of its descriptor and use count, and the clamps of these (R190). -/
def tieOpened (i : UnitImg) (o : Ops) : TOut × UnitImg :=
  let d := tdOf i o
  let n := useCount (sreg i (fs1 o))
  ({ ev := evClamps (d.2 + n.2 + if (tlook i.ties (bits o 2 6)).isSome then 1 else 0) },
   openTie (tieDropped i o) (bits o 2 6)
     { td := treg i (ft1 o), want := n.1, got := 0, count := elemTotal d.1, seams := [] })

/-- TIE_OPEN is a tensor instruction that reads and writes nothing. -/
theorem tieOpenEff_eq (u : UnitId) (o : Ops) (b : Block) : tieOpenEff u o b =
    tensorEff u 0x0E o (legalTieOpen o) noArray b
      (fun _ i => if seamsLack (tieDropped i o) (elemTotal (tdOf i o).1) then some (7, 0) else none) (fun _ _ => [])
      (fun _ _ => []) fun _ i _ => spilled (tieDropped i o) (elemTotal (tdOf i o).1) (tieOpened i o) := rfl

/-- What TIEX reads for the destination of its handle's entry. -/
def tiexReads (u : UnitId) (o : Ops) (b : Block) (c : Nat) (i : UnitImg) : List (U64 × Nat) :=
  match tiexDesc i o with
  | some x => destReads b c u i x.1 (wmode o)
  | none => []

/-- What it writes. -/
def tiexWrites (o : Ops) (b : Block) (c : Nat) (i : UnitImg) : List (U64 × Nat) :=
  match tiexDesc i o with
  | some x => destRanges b c i x.1
  | none => []

theorem tiexReads_eq (u : UnitId) (o : Ops) (b : Block) (c : Nat) (i : UnitImg) : tiexReads u o b c i =
    (((tlook i.ties (bits o 3 6)).map fun e => (readDesc true e.td).1).map
      fun y => destReads b c u i y (wmode o)).getD [] := by
  cases hx : tlook i.ties (bits o 3 6) <;> simp [tiexReads, tiexDesc, hx]

theorem tiexWrites_eq (o : Ops) (b : Block) (c : Nat) (i : UnitImg) : tiexWrites o b c i =
    (((tlook i.ties (bits o 3 6)).map fun e => (readDesc true e.td).1).map (destRanges b c i)).getD [] := by
  cases hx : tlook i.ties (bits o 3 6) <;> simp [tiexWrites, tiexDesc, hx]

/-! ### Completion -/

section
variable {s : State} {t : Fin 1152} {c : Nat} {o : Ops} (h : Executes s (.tile t) c) {i : UnitImg}
  (hi : img s.blk c (.tile t) = i)
include h hi

/-- MMA whose seams fit completes (R122, R173). -/
theorem exec_mma (hl : legalMma o = true) (hfit : seamsLack i (mmaNeed i o) = false)
    (hr : TensorReady s.blk c (.tile t) 0x00 o ((mmaArray (.tile t) o).blocks i) (mmaReads (.tile t) o s.blk c i)
      (mmaWrites o s.blk c i)) :
    exec (.mma (.tile t) o) s =
      .next (tensored s c (.tile t) 0x00 o ((mmaArray (.tile t) o).blocks i) (mmaReads (.tile t) o s.blk c i)
        fun v => spilled i (mmaNeed i o) (mmaRun (.tile t) o c i v)) := by
  subst hi
  exact (actUp_tensorEff (f := mmaEff (.tile t) o) h rfl rfl hl (by simp [hfit]) hr :)

/-- TIE_OPEN whose entry's seams fit, an old entry of the handle gone, completes (R122, R190). -/
theorem exec_tieOpen (hl : legalTieOpen o = true)
    (hfit : seamsLack (tieDropped i o) (elemTotal (tdOf i o).1) = false)
    (hr : TensorReady s.blk c (.tile t) 0x0E o 0 [] []) :
    exec (.tieOpen (.tile t) o) s = .next (tensored s c (.tile t) 0x0E o 0 [] fun _ =>
      spilled (tieDropped i o) (elemTotal (tdOf i o).1) (tieOpened i o)) := by
  subst hi
  exact (actUp_tensorEff h (tieOpenEff_eq (.tile t) o s.blk) rfl hl (if_neg (ne_true_of_eq_false hfit)) hr :)

/-- TIE_ADD raises no exception of its own (R190). -/
theorem exec_tieAdd (hl : legalTieAdd o = true)
    (hr : TensorReady s.blk c (.tile t) 0x0E o 0 (tieAddReads o s.blk c i) []) :
    exec (.tieAdd (.tile t) o) s =
      .next (tensored s c (.tile t) 0x0E o 0 (tieAddReads o s.blk c i) (tieAddRun o c i)) := by
  subst hi
  exact (actUp_tensorEff (f := tieAddEff (.tile t) o) h rfl rfl hl rfl hr :)

/-- TIEX raises no exception of its own (R191). -/
theorem exec_tiex (hl : legalTiex o = true)
    (hr : TensorReady s.blk c (.tile t) 0x0F o 0 (tiexReads (.tile t) o s.blk c i) (tiexWrites o s.blk c i)) :
    exec (.tiex (.tile t) o) s =
      .next (tensored s c (.tile t) 0x0F o 0 (tiexReads (.tile t) o s.blk c i) (tiexRun (.tile t) o c i)) := by
  subst hi
  exact (actUp_tensorEff (f := tiexEff (.tile t) o) h rfl rfl hl rfl hr :)

end

/-- Settles O19: each instruction is the shared effect, whose exception for want of seams the premises exclude. -/
theorem tallyInstructionsComplete : Obligations.TallyInstructionsComplete := by
  intro s t c o h
  refine ⟨fun hl hfit hr => exec_mma h rfl hl hfit hr, fun hl hr hfit => exec_tieOpen h rfl hl hfit hr,
    fun hl hr => exec_tieAdd h rfl hl hr, fun hl hr => ?_⟩
  simp only [← tiexReads_eq, ← tiexWrites_eq] at hr ⊢
  exact exec_tiex h rfl hl hr

end Sys2Proof.Machine
end

section
/-!
WAITC, its timeout and its wake (R125 to R128, R197).
-/
namespace Sys2Proof.Machine

/-- A unit that can execute an instruction of its own program runs no built-in one (R162). -/
theorem builtCtx_of_executes {s : State} {u : UnitId} {c : Nat} (h : Executes s u c) : builtCtx s.blk u = none := by
  obtain ⟨-, hctx, -⟩ := h
  unfold execCtx at hctx
  unfold builtCtx
  split at hctx
  · cases hctx
  · split at hctx
    next hbegin =>
      simp only [atInstr, Bool.and_eq_true, Bool.not_eq_true'] at hbegin
      obtain ⟨⟨-, ⟨-, hown⟩, -⟩, -⟩ := hbegin
      simp [*]
    next => cases hctx

/-- Its instructions are then those of its own program. -/
theorem orBuiltin_of_executes {s : State} {u : UnitId} {c : Nat} (h : Executes s u c) (kind : RckKind)
    (f : Block → Block) : orBuiltin kind u f s.blk = f s.blk := by
  unfold orBuiltin
  split
  next hbuilt => rw [builtCtx_of_executes h] at hbuilt; cases hbuilt
  next => rfl

/-- WAITC of a mapped counter tests it (R197). -/
theorem exec_waitc {s : State} {u : UnitId} {c : Nat} {o : Ops} (h : Executes s u c) (hl : legalWaitc o = true)
    (hmapped : badByte s.blk c (waitcAddr s.blk (img s.blk c u) o).1 8 = none) :
    exec (.waitc u o) s = .next (became s (waitcTest s.blk c u (img s.blk c u) o (mkWord 20 0x04 o))) := by
  have hexec : exec (.waitc u o) s = actUp (orBuiltin .waitc u (waitcEff u o)) s := rfl
  rw [hexec, actUp_next _ s h.1, orBuiltin_of_executes h, waitcEff, hl, issue_effect s u c h]
  simp only [hmapped]

/-- The condition of R197 on the word's value. -/
theorem waitcMet_iff (cond : Nat) (x : Nat) (v : U64) : waitcMet cond (BitVec.ofNat 64 x) v = true ↔
    if cond = 0 then v.toNat ≤ x % 2 ^ 64 else if cond = 1 then x % 2 ^ 64 = v.toNat else x % 2 ^ 64 ≠ v.toNat := by
  unfold waitcMet
  split_ifs
  · simp
  · simp [BitVec.toNat_eq]
  · simp [BitVec.toNat_eq]

/-- WAITC retires with `r`, its clamps counted (R153). -/
theorem waitcRetire_eq (b : Block) (c : Nat) (u : UnitId) (i : UnitImg) (o : Ops) (r : U64) :
    waitcRetire b c u i o r =
      retire (takeWake b u) c u (addClamps ((waitcAddr b i o).2 + (waitcLimit i o).2) (setS i (fd o) r)) := by
  rw [waitcRetire, countEv_clamps]

/-- A word that the memory code cannot correct is tested by nothing (R268). -/
theorem waitcTest_refused {b b1 : Block} {c : Nat} {u : UnitId} {i : UnitImg} {o : Ops}
    (h : meetRead b c u (waitcAddr b i o).1 8 = .refused b1) (w : U64) :
    waitcTest b c u i o w = park b1 c u i .counter w := by
  simp only [waitcTest, h]

/-- A word that reads back decides: met, WAITC retires with 0; not met with no time to wait, with 1; else it waits. -/
theorem waitcTest_ok {b b1 : Block} {c : Nat} {u : UnitId} {i : UnitImg} {o : Ops}
    (h : meetRead b c u (waitcAddr b i o).1 8 = .ok b1) (w : U64) : waitcTest b c u i o w =
    if waitcMet (bits o 0 2) (BitVec.ofNat 64 (leNat (readBytes b1 c i (waitcAddr b i o).1 8))) (sreg i (fb o)) then
      waitcRetire b1 c u i o 0
    else if (waitcLimit i o).1 = 0 then waitcRetire b1 c u i o 1
    else park b1 c u i .counter w := by
  simp only [waitcTest, h]

/-- A timeout ends the wait without a test (R127). -/
theorem exec_waitcTimeout {s : State} (h : Up s) {u : UnitId} {c : Nat} {w : U64}
    (hw : waitCtx s.blk u = some (c, .counter, w)) : exec (.waitcTimeout u) s =
      .next (became s (waitcRetire (gateWake s.blk u) c u (img s.blk c u) (w.setWidth 52) 1)) :=
  (actUp_next (waitcTimeoutEff u) s h).trans (by simp only [waitcTimeoutEff, hw])

/-- A wake is taken and tests again (R126). -/
theorem exec_tileWake {s : State} (h : Up s) {u : UnitId} {c : Nat} {w : U64}
    (hw : waitCtx s.blk u = some (c, .counter, w)) : exec (.tileWake u) s =
      .next (became s (waitcTest (gateWake (takeWake s.blk u) u) c u (img s.blk c u) (w.setWidth 52) w)) :=
  (actUp_next (tileWakeEff u) s h).trans (by simp only [tileWakeEff, hw])

/-- Settles O21: WAITC and a wake test the counter word by one rule, and a timeout retires without a test. -/
theorem counterWaits : Obligations.CounterWaits := by
  intro s u c
  refine ⟨fun o h hl => ?_, fun w h hw => ⟨exec_waitcTimeout h hw, exec_tileWake h hw⟩⟩
  intro b i a n w hmapped
  rw [exec_waitc h hl hmapped]
  refine ⟨fun b1 hread => ?_, fun b1 hread => by rw [waitcTest_refused hread]⟩
  intro x v cond met done
  have hmet := waitcMet_iff (bits o 0 2) (leNat (readBytes b1 c i a 8)) (sreg i (fb o))
  rw [waitcTest_ok hread]
  refine ⟨fun hyes => ?_, fun hno hzero => ?_, fun hno hsome => ?_⟩
  · rw [if_pos (hmet.mpr hyes), waitcRetire_eq]
  · rw [if_neg (mt hmet.mp hno), if_pos hzero, waitcRetire_eq]
  · rw [if_neg (mt hmet.mp hno), if_neg hsome]

end Sys2Proof.Machine
end

section
/-!
Memory controllers, region clocks and the short-vector unit's power (R105, R119, R269, R281 to R286, R477, R478): what
an event leaves of the block, and each command where its conditions hold.
-/
namespace Sys2Proof.Machine

/-! ### Sending an event (R434) -/

/-- `d` with what sending an event changes taken from `b`: sessions, the port's and the relay's state, the event number
and the frames sent. -/
def butEvents (b d : Block) : Block :=
  { d with sessions := b.sessions, hp := b.hp, house := b.house, eventNo := b.eventNo, egress := b.egress }

theorem eventFrame_frame (b : Block) (id seq : Nat) (z : List Byte) (v : EventSent) (b0 : Block) :
    butEvents b0 (eventFrame b id seq z v) = butEvents b0 b := by
  unfold eventFrame countTx
  dsimp only
  split
  · split <;> rfl
  · split <;> rfl

theorem queueEvent_frame (b : Block) (id n : Nat) (e : Event) (b0 : Block) :
    butEvents b0 (queueEvent b id n e) = butEvents b0 b := by
  unfold queueEvent
  split
  · rfl
  · split
    · rfl
    · exact eventFrame_frame _ _ _ _ _ b0

/-- An event changes nothing else. -/
theorem sendEvent_frame (b : Block) (e : Event) : butEvents b (sendEvent b e) = b := by
  have hqueue (l : List Nat) (d : Block) :
      butEvents b (l.foldl (fun x id => queueEvent x id b.eventNo e) d) = butEvents b d := by
    induction l generalizing d with
    | nil => rfl
    | cons id l ih => exact (ih _).trans (queueEvent_frame d id b.eventNo e b)
  exact hqueue (eventTo b e) { b with eventNo := b.eventNo + 1 }

@[simp] theorem sendEvent_ct (b : Block) (e : Event) : (sendEvent b e).ct = b.ct :=
  (congrArg Block.ct (sendEvent_frame b e) :)

@[simp] theorem sendEvent_pw (b : Block) (e : Event) : (sendEvent b e).pw = b.pw :=
  (congrArg Block.pw (sendEvent_frame b e) :)

@[simp] theorem sendEvent_chipEvent (b : Block) (e : Event) : (sendEvent b e).chipEvent = b.chipEvent :=
  (congrArg Block.chipEvent (sendEvent_frame b e) :)

/-! ### Patrol scrub -/

theorem toNat_decide (p : Prop) [Decidable p] : (decide p).toNat = if p then 1 else 0 := by
  split <;> simp [*]

/-- A present stack's scrub outside self-refresh takes one line of each channel (R269, R270). -/
theorem scrubStack_eq {b : Block} {k : Nat} (hp : b.geo.stackMask.getLsbD k = true) (hen : (mcOf b k).scrubEn = true)
    (hsr : (mcOf b k).selfRefresh = false) :
    let n := (mcOf b k).scrubLine
    let r := scrubLines b ((List.range 128).map fun ch => chanAddr k ch n)
    let m := mcOf r.1 k
    let d := setMc r.1 k { m with
      scrubLine := if n + 1 = 2 ^ 21 then 0 else n + 1
      scrubPass := satAdd m.scrubPass (if n + 1 = 2 ^ 21 then 1 else 0) }
    scrubStack k b = if r.2 then regionFault d k 1 else d := by
  simp [scrubStack, hp, hen, hsr, toNat_decide]

/-- The tier's takes one line of each bus (R284, R286, R288). -/
theorem scrubTier_eq {b : Block} (hp : presentBuses b ≠ []) (hen : (mcOf b 0).scrubEn = true) :
    let n := b.ct.scrubLine
    let r := scrubLines b ((List.range (presentBuses b).length).map fun j => busAddr b j n)
    let d := { r.1 with ct := { r.1.ct with
      scrubLine := if n + 1 = 2 ^ 28 then 0 else n + 1
      scrubPass := satAdd r.1.ct.scrubPass (if n + 1 = 2 ^ 28 then 1 else 0) } }
    scrubTier b = if r.2 then chipFault d 3 0 1 else d := by
  simp [scrubTier, hp, hen, toNat_decide]

/-- A tile's takes 64 bytes of the running context's SRAM (R105). -/
theorem tileScrub_eq {b : Block} {t c : Nat} (hp : tilePresent b t = true) (hclk : clocked b (t / 96) = true)
    (hen : (tileHw b t).scrub = true) (hgate : gated b t = false) (hok : (tileHw b t).faulted = false)
    (hr : b.running = some c) :
    let n := (tileHw b t).scrubPos
    let r := scrubRead b (sramKey c t (64 * n)) 64
    let h := tileHw r.1 t
    let d := setTileHw r.1 t { h with
      scrubPos := if n + 1 = 24576 then 0 else n + 1, scrubPass := satAdd h.scrubPass (if n + 1 = 24576 then 1 else 0) }
    tileScrub t b = if r.2.isSome then tileFault d t 2 (n % 32) (liveImg d (.tile (tile1152 t))).pc else d := by
  simp [tileScrub, hp, hclk, hen, hgate, hok, hr, toNat_decide]

/-! ### Heat -/

/-- A band's report raises the level to what the band asks for, and alerts from band 6 on (R281, R282, R477). -/
theorem bandReport_eq (k : Nat) (band : BitVec 3) (b : Block) :
    let m := mcOf b k
    let d := setMc b k (raiseLevel { m with
      band := band, throttle := satAdd m.throttle (if m.level = 0 then 0 else 32) })
    bandReport k band b =
      if 6 ≤ band.toNat then thermalCritical (setHot d k true) k band.toNat else setHot d k false := by
  intro m d
  by_cases hcrit : 6 ≤ band.toNat
  · rw [if_pos hcrit]
    simp only [bandReport, hcrit, decide_true, if_true]
    rfl
  · rw [if_neg hcrit]
    simp only [bandReport, hcrit, decide_false, Bool.false_eq_true, if_false]
    rfl

/-- Bus k's bit alone changes (R286). -/
theorem getLsbD_setBit (x : U16) (k : Nat) (hot : Bool) {j : Nat} (hj : j < 16) :
    (if hot then x ||| 1#16 <<< k else x &&& ~~~ (1#16 <<< k)).getLsbD j = if j = k then hot else x.getLsbD j := by
  have hbit : (1#16 <<< k).getLsbD j = decide (j = k) := by
    rw [show 1#16 <<< k = BitVec.twoPow 16 k from rfl, BitVec.getLsbD_twoPow]
    by_cases hjk : j = k
    · simp [hjk ▸ hj, hjk]
    · simp [hjk, Ne.symm hjk]
  cases hot with
  | false =>
    simp only [Bool.false_eq_true, if_false, BitVec.getLsbD_and, BitVec.getLsbD_not, hbit, hj]
    by_cases hjk : j = k <;> simp [hjk]
  | true =>
    simp only [if_true, BitVec.getLsbD_or, hbit]
    by_cases hjk : j = k <;> simp [hjk]

/-- A bus's report sets its throttle bit; a hot one alerts (R286, R477). -/
theorem busIndication_effect {b : Block} {k : Nat} (hp : b.geo.capBuses.getLsbD k = true) (hot : Bool) :
    (busIndication k hot b).ct.throttled =
        (if hot then b.ct.throttled ||| 1#16 <<< k else b.ct.throttled &&& ~~~ (1#16 <<< k)) ∧
      (hot = true → (busIndication k hot b).pw.alert = b.pw.alert ||| 8 ∧
        (busIndication k hot b).chipEvent = b.chipEvent ||| 2) := by
  cases hot <;> simp [busIndication, hp, thermalCritical, setHot]

/-! ### The commands -/

/-- Settles O34: where its conditions hold each command is its one effect; the event of a hot bus leaves alerts and
throttling alone. -/
theorem memoryControllersAndClocks : Obligations.MemoryControllersAndClocks := by
  refine ⟨fun s h => ⟨fun k hk hp hen hsr => ?_, fun hp hen => ?_, fun t c hp hclk hen hgate hok hr => ?_⟩,
    fun s h => ⟨fun k => ⟨fun hp hsr huse => ?_, fun hsr => ?_, fun band => ?_, fun hlow => ?_, fun hpll => ?_,
      fun hpll => ?_⟩, fun bus hot hp => ?_, fun t hhold hdown => ?_⟩⟩
  · have hmc : mcScrub k.val s.blk = scrubStack k.val s.blk := if_pos hk
    exact (actUp_next (mcScrub k.val) s h).trans (by rw [hmc, scrubStack_eq hp hen hsr])
  · exact (actUp_next (mcScrub 12) s h).trans (by rw [← scrubTier_eq hp hen]; rfl)
  · exact (actUp_next (tileScrub t.val) s h).trans (by rw [tileScrub_eq hp hclk hen hgate hok hr])
  · exact (actUp_next (selfRefreshEntry k.val) s h).trans (by simp [selfRefreshEntry, hp, hsr, huse])
  · exact (actUp_next (selfRefreshExit k.val) s h).trans (by simp [selfRefreshExit, hsr])
  · exact (actUp_next (bandReport k.val band) s h).trans (by rw [bandReport_eq]; rfl)
  · exact (actUp_next (throttleRelax k.val) s h).trans (by rw [throttleRelax, if_pos hlow])
  · exact (actUp_next (pllLock k.val) s h).trans (by rw [pllLock, if_pos hpll])
  · exact (actUp_next (pllLoss k.val) s h).trans (by rw [pllLoss, if_neg hpll])
  · obtain ⟨hth, halert⟩ := busIndication_effect hp hot
    refine ⟨_, actUp_next (busIndication bus.val hot) s h, fun j hj => ?_, halert⟩
    rw [hth, getLsbD_setBit _ _ hot hj]
  · exact (actUp_next (svuPowerDown t.val) s h).trans (by simp [svuPowerDown, hhold, hdown])

end Sys2Proof.Machine
end

section
/-!
Instruction words (R137 to R139): the fields of a word, what each class decodes to, and that decoding and encoding
are inverse to each other.
-/
namespace Sys2Proof.Machine

/-! ### The fields of a word -/

theorem wordClass_mkWord {cls : Nat} (hc : cls < 64) (op : Nat) (o : Ops) : wordClass (mkWord cls op o) = cls := by
  have hfield : (mkWord cls op o).extractLsb' 58 6 = BitVec.ofNat 6 cls := by
    apply BitVec.eq_of_getLsbD_eq
    intro j hj
    simp only [mkWord, BitVec.getLsbD_extractLsb', BitVec.getLsbD_append, hj, decide_true, Bool.true_and]
    rw [if_neg (by omega), if_neg (by omega)]
    congr 1
    omega
  rw [wordClass, hfield, BitVec.toNat_ofNat, Nat.mod_eq_of_lt hc]

theorem wordOp_mkWord (cls : Nat) {op : Nat} (ho : op < 64) (o : Ops) : wordOp (mkWord cls op o) = op := by
  have hfield : (mkWord cls op o).extractLsb' 52 6 = BitVec.ofNat 6 op := by
    apply BitVec.eq_of_getLsbD_eq
    intro j hj
    simp only [mkWord, BitVec.getLsbD_extractLsb', BitVec.getLsbD_append, hj, decide_true, Bool.true_and]
    rw [if_neg (by omega), if_pos (by omega)]
    congr 1
    omega
  rw [wordOp, hfield, BitVec.toNat_ofNat, Nat.mod_eq_of_lt ho]

theorem wordOps_mkWord (cls op : Nat) (o : Ops) : wordOps (mkWord cls op o) = o := by
  apply BitVec.eq_of_getLsbD_eq
  intro j hj
  simp only [wordOps, mkWord, BitVec.getLsbD_extractLsb', BitVec.getLsbD_append, hj, decide_true, Bool.true_and]
  rw [if_pos (by omega), Nat.zero_add]

/-- A word is its class, its operation and its operands. -/
theorem mkWord_fields (w : U64) : mkWord (wordClass w) (wordOp w) (wordOps w) = w := by
  apply BitVec.eq_of_getLsbD_eq
  intro j hj
  simp only [mkWord, wordClass, wordOp, wordOps, BitVec.ofNat_toNat, BitVec.setWidth_eq, BitVec.getLsbD_append,
    BitVec.getLsbD_extractLsb']
  split
  · simp [*]
  · split
    · rw [decide_eq_true (by omega), Bool.true_and]
      congr 1
      omega
    · rw [decide_eq_true (by omega), Bool.true_and]
      congr 1
      omega

/-! ### What each class decodes to -/

/-- The command that a class, an operation and operands give their unit. -/
def decodeFields (u : UnitId) (elapsed cls op : Nat) (o : Ops) : Option Instr :=
  match cls with
  | 0x01 => decodeInt u op o
  | 0x02 => decodeMem u op o
  | 0x03 => decodeControl u op o
  | 0x04 => decodeF64 u op o
  | 0x05 => decodeSystem u op o
  | 0x08 => decodeVector u op o
  | 0x10 => decodeTensor u op o
  | 0x14 => decodeFabric u op o
  | 0x18 => decodeDerrick u op o elapsed
  | 0x1C => decodeLedger u op o
  | 0x20 => decodeUpdate u op o
  | _ => none

theorem decodeWord_eq (u : UnitId) (e : Nat) (w : U64) :
    decodeWord u e w = decodeFields u e (wordClass w) (wordOp w) (wordOps w) := rfl

theorem decodeWord_mkWord (u : UnitId) (e : Nat) {cls op : Nat} (hc : cls < 64) (ho : op < 64) (o : Ops) :
    decodeWord u e (mkWord cls op o) = decodeFields u e cls op o := by
  rw [decodeWord_eq, wordClass_mkWord hc, wordOp_mkWord cls ho, wordOps_mkWord]

/-- The instruction of unit `u` has the word of these fields, and its form is that of the operands. -/
def Spells (u : UnitId) (cls op : Nat) (o : Ops) (i : Instr) : Prop :=
  encodeWord i = some (u, mkWord cls op o) ∧ formOk i = true

section
variable {u : UnitId} {op : Nat} {o : Ops} {i : Instr}

theorem spells_of_decodeInt (h : decodeInt u op o = some i) : Spells u 0x01 op o i := by
  unfold decodeInt at h
  split at h <;> cases h <;> exact ⟨rfl, rfl⟩

theorem spells_of_decodeMem (h : decodeMem u op o = some i) : Spells u 0x02 op o i := by
  unfold decodeMem at h
  split at h <;> cases h <;> exact ⟨rfl, rfl⟩

theorem spells_of_decodeControl (h : decodeControl u op o = some i) : Spells u 0x03 op o i := by
  unfold decodeControl at h
  split at h <;> cases h <;> exact ⟨rfl, rfl⟩

theorem spells_of_decodeF64 (h : decodeF64 u op o = some i) : Spells u 0x04 op o i := by
  unfold decodeF64 at h
  split at h <;> cases h <;> exact ⟨rfl, rfl⟩

/-- SYSW is XRET's write by its register number (R157). -/
theorem spells_of_decodeSystem (h : decodeSystem u op o = some i) : Spells u 0x05 op o i := by
  unfold decodeSystem at h
  split at h
  · cases h; exact ⟨rfl, rfl⟩
  · cases h
    split
    next hx => exact ⟨rfl, by simp [formOk, hx]⟩
    next hx => exact ⟨rfl, by simp [formOk, hx]⟩
  · cases h

theorem spells_of_decodeVector (h : decodeVector u op o = some i) : Spells u 0x08 op o i := by
  unfold decodeVector at h
  split at h <;> cases h <;> exact ⟨rfl, rfl⟩

/-- CVT and its roll form share an operation, and so do the two forms of TIE (R176, R190). -/
theorem spells_of_decodeTensor (h : decodeTensor u op o = some i) : Spells u 0x10 op o i := by
  unfold decodeTensor at h
  split at h
  case h_2 =>
    cases h
    split
    next hroll => exact ⟨rfl, hroll⟩
    next hroll => exact ⟨rfl, by simp [formOk, hroll]⟩
  case h_15 =>
    split at h
    next hopen => cases h; exact ⟨rfl, by simp [formOk, hopen]⟩
    next =>
      split at h
      next hadd => cases h; exact ⟨rfl, by simp [formOk, hadd]⟩
      next => cases h
  all_goals cases h <;> exact ⟨rfl, rfl⟩

theorem spells_of_decodeFabric (h : decodeFabric u op o = some i) : Spells u 0x14 op o i := by
  unfold decodeFabric at h
  split at h <;> cases h <;> exact ⟨rfl, rfl⟩

theorem spells_of_decodeDerrick {e : Nat} (h : decodeDerrick u op o e = some i) : Spells u 0x18 op o i := by
  unfold decodeDerrick at h
  split at h <;> cases h <;> exact ⟨rfl, rfl⟩

theorem spells_of_decodeLedger (h : decodeLedger u op o = some i) : Spells u 0x1C op o i := by
  unfold decodeLedger at h
  split at h <;> cases h <;> exact ⟨rfl, rfl⟩

/-- UPD.NORM is partial or total by its form (R376, R378). -/
theorem spells_of_decodeUpdate (h : decodeUpdate u op o = some i) : Spells u 0x20 op o i := by
  unfold decodeUpdate at h
  split at h
  case h_1 =>
    cases h
    split
    next htotal => exact ⟨rfl, htotal⟩
    next htotal => exact ⟨rfl, by simp [formOk, htotal]⟩
  all_goals cases h <;> exact ⟨rfl, rfl⟩

/-- Whatever fields give a command, they are its own. -/
theorem spells_of_decodeFields {e cls : Nat} (h : decodeFields u e cls op o = some i) : Spells u cls op o i := by
  unfold decodeFields at h
  split at h
  · exact spells_of_decodeInt h
  · exact spells_of_decodeMem h
  · exact spells_of_decodeControl h
  · exact spells_of_decodeF64 h
  · exact spells_of_decodeSystem h
  · exact spells_of_decodeVector h
  · exact spells_of_decodeTensor h
  · exact spells_of_decodeFabric h
  · exact spells_of_decodeDerrick h
  · exact spells_of_decodeLedger h
  · exact spells_of_decodeUpdate h
  · cases h

end

/-- A class outside the table of R138 gives no command. -/
theorem decodeFields_of_notMem (u : UnitId) (e op : Nat) (o : Ops) {cls : Nat}
    (h : cls ∉ [0x01, 0x02, 0x03, 0x04, 0x05, 0x08, 0x10, 0x14, 0x18, 0x1C, 0x20]) :
    decodeFields u e cls op o = none := by
  unfold decodeFields
  split <;> simp at h ⊢

/-! ### Decoding and encoding -/

theorem encodeWord_of_decodeWord {u : UnitId} {e : Nat} {w : U64} {i : Instr} (h : decodeWord u e w = some i) :
    encodeWord i = some (u, w) ∧ formOk i = true := by
  have hspells := spells_of_decodeFields h
  rwa [Spells, mkWord_fields] at hspells

/-- An instruction is read back from its word: by its class and operation, or, where several share an operation, by
their form. -/
theorem decodeWord_of_encodeWord {u : UnitId} {w : U64} {i : Instr} (h : encodeWord i = some (u, w))
    (hform : formOk i = true) : decodeWord u (elapsedOf i) w = some i := by
  cases i <;> simp only [encodeWord, Option.some.injEq, Prod.mk.injEq, reduceCtorEq] at h
  all_goals
    obtain ⟨rfl, rfl⟩ := h
    rw [decodeWord_mkWord _ _ (by decide) (by decide)]
  case cvt | cvtRoll => simp_all [formOk, decodeFields, decodeTensor]
  case tieOpen | tieAdd => simp_all [formOk, decodeFields, decodeTensor]
  case sysw | syswXret => simp_all [formOk, decodeFields, decodeSystem]
  case updNormPartial | updNormTotal => simp_all [formOk, decodeFields, decodeUpdate]
  all_goals rfl

/-- A word that gives no command raises cause 1 (R139). -/
theorem execWord_of_none {u : UnitId} {e : Nat} {w : U64} (hw : decodeWord u e w = none) {s : State} {c : Nat}
    (h : Executes s u c) : execWord u e w s = .next (became s (takeExc s.blk c u 1 0 w)) := by
  rw [execWord, hw]
  exact (actUp_next _ s h.1).trans (by rw [issue_illegal s u c h])

/-- Settles O11: a word is its fields, each class gives commands with the fields of the word, and an instruction's own
fields give it back. -/
theorem instructionWords : Obligations.InstructionWords := by
  refine ⟨fun cls op o hc ho => ⟨wordClass_mkWord hc op o, wordOp_mkWord cls ho o, wordOps_mkWord cls op o⟩,
    fun u e w i => encodeWord_of_decodeWord, fun u w i => decodeWord_of_encodeWord, fun u e w => ⟨fun hcls => ?_, ?_⟩⟩
  · exact decodeFields_of_notMem u e (wordOp w) (wordOps w) hcls
  · exact fun hnone s c => execWord_of_none hnone

end Sys2Proof.Machine
end

section
/-!
The integer class (R140, R141, R154): the shared effect of its instructions, the shift amount, and MUL and DIV by form.
-/
namespace Sys2Proof.Machine

/-- The image once an integer operation has put its result into s[d] and counted its clamps. -/
def intDone (f : U64 → U64 → U64 × Nat) (i : UnitImg) (o : Ops) : UnitImg :=
  addClamps (f (sreg i (fa o)) (opB i o)).2 (setS i (fd o) (f (sreg i (fa o)) (opB i o)).1)

/-- Every integer operation but ADDI retires so. -/
theorem actUp_intEff {s : State} {u : UnitId} {c : Nat} (h : Executes s u c) {o : Ops} {legal : Ops → Bool}
    (hl : legal o = true) (op : Nat) (f : U64 → U64 → U64 × Nat) :
    actUp (intEff op legal f u o) s = .next (ran s c u (intDone f (img s.blk c u) o)) := by
  rw [intDone, ← countEv_clamps]
  exact actUp_issue_retire h _ hl fun i =>
    countEv (setS i (fd o) (f (sreg i (fa o)) (opB i o)).1) (evClamps (f (sreg i (fa o)) (opB i o)).2)

theorem exec_addi {s : State} {u : UnitId} {c : Nat} (h : Executes s u c) (o : Ops) : exec (.addi u o) s =
    .next (ran s c u (setS (img s.blk c u) (fd o) (sreg (img s.blk c u) (fa o) + imm42 o))) :=
  actUp_issue_retire h (legal := legalAddi o) _ rfl fun i => setS i (fd o) (sreg i (fa o) + imm42 o)

/-- No clamps leave OP_CLAMP as it is. -/
@[simp] theorem addClamps_zero (i : UnitImg) : addClamps 0 i = i := by
  simp [addClamps]

section
variable {s : State} {u : UnitId} {c : Nat} (h : Executes s u c) {o : Ops} {legal : Ops → Bool} (hl : legal o = true)
  (op : Nat) {f : U64 → U64 → U64 × Nat} {r : U64}
include h hl

/-- An operation of result `r` and `k` clamps. -/
theorem actUp_intEff_clamps {k : Nat} (hf : f (sreg (img s.blk c u) (fa o)) (opB (img s.blk c u) o) = (r, k)) :
    actUp (intEff op legal f u o) s = .next (ran s c u (addClamps k (setS (img s.blk c u) (fd o) r))) := by
  rw [actUp_intEff h hl, intDone, hf]

/-- An operation that clamps nothing. -/
theorem actUp_intEff_noClamp (hf : f (sreg (img s.blk c u) (fa o)) (opB (img s.blk c u) o) = noClamp r) :
    actUp (intEff op legal f u o) s = .next (ran s c u (setS (img s.blk c u) (fd o) r)) := by
  rw [actUp_intEff_clamps h hl op hf, addClamps_zero]

end

theorem shiftAmount_eq (y : U64) : shiftAmount y = (min y.toNat 63, if 63 < y.toNat then 1 else 0) := by
  unfold shiftAmount
  split
  next hle => rw [min_eq_left hle, if_neg (by omega)]
  next hgt => rw [min_eq_right (by omega), if_pos (by omega)]

/-- Settles O1: each instruction is the shared effect with its own operation; a shift takes the clamped amount. -/
theorem integerAndShiftResults : Obligations.IntegerAndShiftResults := by
  refine ⟨fun s u c o h => ⟨fun hl => ?_, exec_addi h o⟩, fun s u c o h hl => ?_⟩
  · refine ⟨?_, ?_, ?_, ?_, ?_⟩
    all_goals exact actUp_intEff_noClamp h hl _ rfl
  · intro i x y n k
    have hy : shiftAmount (opB i o) = (n, k) := shiftAmount_eq y
    refine ⟨?_, ?_, ?_⟩
    all_goals exact actUp_intEff_clamps h hl _ (by rw [hy])

/-! ### MUL and DIV by form -/

theorem legalMul_of_form_three {o : Ops} (hform : bits o 16 2 = 3) : legalMul o = false := by
  simp [legalMul, hform]

/-- DIV by a nonzero divisor: unsigned quotient and remainder are those of words. -/
theorem divForm_eq (form : Nat) (x y : U64) : divForm form x y =
    if form = 0 then BitVec.ofInt 64 (x.toInt.tdiv y.toInt) else if form = 1 then x / y
    else if form = 2 then BitVec.ofInt 64 (x.toInt.tmod y.toInt) else x % y := by
  have hdiv : BitVec.ofNat 64 (x.toNat / y.toNat) = x / y := by
    rw [← BitVec.toNat_udiv, BitVec.ofNat_toNat, BitVec.setWidth_eq]
  have hmod : BitVec.ofNat 64 (x.toNat % y.toNat) = x % y := by
    rw [← BitVec.toNat_umod, BitVec.ofNat_toNat, BitVec.setWidth_eq]
  rw [divForm, hdiv, hmod]

/-- By one, a division gives the dividend and remainder 0 (R141). -/
theorem divForm_one (form : Nat) (x : U64) : divForm form x 1 = if form ≤ 1 then x else 0 := by
  have hone : (1 : U64).toInt = 1 := by decide
  rw [divForm_eq, hone, Int.tdiv_one, BitVec.ofInt_toInt, Int.tmod_one]
  rcases form with _ | _ | _ | form <;> simp

/-- Settles O2: both are the shared effect; a divisor of 0 divides by one, with one clamp. -/
theorem multiplyDivideResults : Obligations.MultiplyDivideResults := by
  intro s u c o h i x y form
  refine ⟨legalMul_of_form_three, fun hl => ?_, fun hl hy => ?_, fun hl hy => ?_⟩
  · exact actUp_intEff_noClamp h hl _ rfl
  · have hdiv : divClamped form x y = (divForm form x y, 0) := if_neg hy
    rw [← divForm_eq]
    exact actUp_intEff_noClamp h hl _ hdiv
  · have hdiv : divClamped form x y = (divForm form x 1, 1) := if_pos hy
    rw [← divForm_one]
    exact actUp_intEff_clamps h hl _ hdiv

end Sys2Proof.Machine
end

section
/-!
Branches and jumps (R143, R162).
-/
namespace Sys2Proof.Machine

/-- A branch that is taken goes to its target; another runs on. -/
theorem actUp_branchEff {s : State} {u : UnitId} {c : Nat} (h : Executes s u c) {o : Ops} (hl : legalBranch o = true)
    (op : Nat) (si un : U64 → U64 → Bool) (fp : FVal → FVal → Bool) :
    let i := img s.blk c u
    actUp (branchEff op si un fp u o) s = .next (
      if (if bit o 36 then fp (fval i (fa o)) (fval i (fb o))
          else if bit o 35 then un (sreg i (fa o)) (sreg i (fb o)) else si (sreg i (fa o)) (sreg i (fb o)))
      then became s (jumpTo s.blk c u i (target i o)) else ran s c u i) := by
  intro i
  rw [actUp_next _ s h.1, branchEff, hl, issue_effect s u c h, apply_ite (became s)]
  rfl

theorem exec_jal {s : State} {u : UnitId} {c : Nat} (h : Executes s u c) {o : Ops} (hl : legalJal o = true) :
    let i := img s.blk c u
    exec (.jal u o) s = .next (became s (jumpTo s.blk c u (setS i (fd o) (i.pc + 8)) (target i o))) := by
  intro i
  refine (actUp_next (jalEff u o) s h.1).trans ?_
  rw [jalEff, hl, issue_effect s u c h]

theorem exec_jalr {s : State} {u : UnitId} {c : Nat} (h : Executes s u c) {o : Ops} (hl : legalJalr o = true) :
    let i := img s.blk c u
    let t := clearLow 3 (jalrRaw i o)
    exec (.jalr u o) s =
      .next (became s (jumpTo s.blk c u (addClamps t.2 (setS i (fd o) (i.pc + 8))) t.1)) := by
  intro i t
  refine (actUp_next (jalrEff u o) s h.1).trans ?_
  rw [jalrEff, hl, issue_effect s u c h, ← countEv_clamps]

/-- Settles O4: each branch is the shared effect with its own tests. -/
theorem branchAndJump : Obligations.BranchAndJump := by
  intro s u c o h
  refine ⟨fun hl => ⟨?_, ?_, ?_, ?_⟩, fun hl => exec_jal h hl, fun hl => exec_jalr h hl⟩
  · exact (actUp_branchEff h hl _ _ _ _).trans (by simp only [ite_self]; rfl)
  · exact (actUp_branchEff h hl _ _ _ _).trans (by simp only [ite_self]; rfl)
  · exact actUp_branchEff h hl _ _ _ _
  · exact actUp_branchEff h hl _ _ _ _

end Sys2Proof.Machine
end

section
/-!
The integer register file, the system class and exceptions (R135, R139, R151, R152, R156 to R158).
-/
namespace Sys2Proof.Machine

/-! ### Registers (R135) -/

theorem sreg_setS (i : UnitImg) (r q : BitVec 5) (x : U64) :
    sreg (setS i r x) q = if q = 0 then 0 else if q = r then x else sreg i q := by
  unfold sreg setS
  by_cases hq : q = 0
  · rw [if_pos hq, if_pos hq]
  · rw [if_neg hq, if_neg hq, if_neg hq]
    by_cases hr : r = 0
    · rw [if_pos hr, if_neg (hr ▸ hq)]
    · rw [if_neg hr]
      by_cases hqr : q = r
      · simp [hqr]
      · have hne : r.toNat ≠ q.toNat := fun e => hqr (BitVec.eq_of_toNat_eq e.symm)
        simp [hqr, hne]

@[simp] theorem setS_zero (i : UnitImg) (x : U64) : setS i 0 x = i := rfl

/-- Settles O8: the register written reads the value, and s0 neither reads nor takes one. -/
theorem integerRegisterFile : Obligations.IntegerRegisterFile :=
  fun i r q x => ⟨sreg_setS i r q x, setS_zero i x⟩

/-! ### Exceptions (R156, R158) -/

/-- The image that takes an exception: the four registers set, no access open any more. -/
def raised (i : UnitImg) (cause : Nat) (addr inst : U64) : UnitImg :=
  { i with rbuf := [], rbad := false, xpc := i.pc, xcause := BitVec.ofNat 4 cause, xaddr := addr, xinst := inst }

section
variable (b : Block) (c : Nat) (u : UnitId) (cause : Nat) (addr inst : U64) (hbuilt : (img b c u).builtin = false)
include hbuilt

/-- With a handler to take it, an exception goes there. -/
theorem takeExc_handled (hvec : (img b c u).xvec ≠ 0) (hout : (img b c u).handler = false) :
    takeExc b c u cause addr inst = setImg b c u
      { raised (img b c u) cause addr inst with handler := true, pc := (img b c u).xvec, run := .running } := by
  simp only [takeExc, raised, hbuilt, hvec, hout, decide_false, Bool.or_self, Bool.false_eq_true, if_false]

/-- Without one it halts unit and context, counts at the chip and reaches the host. -/
theorem takeExc_fault (hno : (img b c u).xvec = 0 ∨ (img b c u).handler = true)
    (hopen : (ctxOf b c).confidential = false) :
    takeExc b c u cause addr inst = sendEvent
      (haltCtx (setImg { b with ft := { b.ft with chipFaults := satAdd b.ft.chipFaults 1 } } c u
        { raised (img b c u) cause addr inst with run := .halted }) c .haltedFault)
      { kind := 1, ctx := c, body := [BitVec.ofNat 64 (sysUnit u), BitVec.ofNat 64 cause, (img b c u).pc, addr] } := by
  have hfull (x : U64) : x &&& -1 = x := BitVec.and_allOnes
  rcases hno with hvec | hin
  · simp only [takeExc, raised, hbuilt, hvec, hopen, hfull, decide_true, Bool.true_or, if_true, Bool.false_eq_true,
      if_false]
  · simp only [takeExc, raised, hbuilt, hin, hopen, hfull, Bool.or_true, Bool.true_or, if_true, Bool.false_eq_true,
      if_false]

end

/-- A unit that can execute an instruction runs, of its own program, in the running context, and no drain stops it. -/
theorem atInstr_of_executes {s : State} {u : UnitId} {c : Nat} (h : Executes s u c) :
    s.blk.running = some c ∧ mayBegin s.blk c = true ∧ atInstr (img s.blk c u) = true := by
  obtain ⟨-, hctx, -⟩ := h
  unfold execCtx at hctx
  split at hctx
  · cases hctx
  next d hrun =>
    split at hctx
    next hbegin =>
      cases hctx
      simp only [Bool.and_eq_true] at hbegin
      exact ⟨hrun, hbegin.1.1, hbegin.1.2⟩
    next => cases hctx

theorem builtin_of_executes {s : State} {u : UnitId} {c : Nat} (h : Executes s u c) :
    (img s.blk c u).builtin = false := by
  obtain ⟨-, -, hinstr⟩ := atInstr_of_executes h
  simp only [atInstr, Bool.and_eq_true, Bool.not_eq_true'] at hinstr
  exact hinstr.1.2

/-- An illegal word of ADD raises cause 1 (R139). -/
theorem exec_add_illegal {s : State} {u : UnitId} {c : Nat} (h : Executes s u c) {o : Ops}
    (hl : legalInt false o = false) : exec (.add u o) s = .next (became s (takeExc s.blk c u 1 0 (mkWord 1 0 o))) := by
  refine (actUp_next (addEff u o) s h.1).trans ?_
  rw [addEff, intEff, hl, issue_illegal s u c h]

/-- Settles O7: the two ends of an exception, and ADD's illegal word as one of cause 1. -/
theorem exceptions : Obligations.Exceptions := by
  refine ⟨fun s u c o h hl => ?_, fun s u c o h hl => ?_, fun b c u cause addr inst => ?_⟩
  · intro i hvec hout
    rw [exec_add_illegal h hl, takeExc_handled _ _ _ _ _ _ (builtin_of_executes h) hvec hout]
    rfl
  · intro b i hno hopen
    rw [exec_add_illegal h hl, takeExc_fault _ _ _ _ _ _ (builtin_of_executes h) hno hopen]
    rfl
  · intro i j hbuilt
    exact ⟨takeExc_handled b c u cause addr inst hbuilt, takeExc_fault b c u cause addr inst hbuilt⟩

/-! ### System registers (R151, R152, R157) -/

section
variable {s : State} {u : UnitId} {c : Nat} (h : Executes s u c) {o : Ops}
include h

theorem exec_sysr (hl : legalSysr o = true) : exec (.sysr u o) s =
    .next (ran s c u (setS (img s.blk c u) (fd o) (sysValue s.blk c u (img s.blk c u) (bits o 0 12)))) := by
  refine (actUp_next (sysrEff u o) s h.1).trans ?_
  rw [sysrEff, hl, issue_effect s u c h]
  rfl

/-- SYSW to CTX.SEED. -/
theorem exec_sysw_seed (hl : legalSysw o = true) (hseed : bits o 0 12 = 0x011) :
    let i := img s.blk c u
    exec (.sysw u o) s =
      .next (became s (retire (writeSeed s.blk c u (sreg i (fa o))) c u { i with seeds := i.seeds + 1 })) := by
  refine (actUp_next (syswEff u o) s h.1).trans ?_
  rw [syswEff, hl, issue_effect s u c h]
  simp only [hseed, if_true]

/-- SYSW to XVEC. -/
theorem exec_sysw_xvec (hl : legalSysw o = true) (hvec : bits o 0 12 = 0x020) :
    let i := img s.blk c u
    let t := clearLow 3 (sreg i (fa o))
    exec (.sysw u o) s = .next (ran s c u (addClamps t.2 { i with xvec := t.1 })) := by
  intro i t
  rw [← countEv_clamps]
  refine (actUp_next (syswEff u o) s h.1).trans ?_
  rw [syswEff, hl, issue_effect s u c h]
  simp only [hvec, Nat.reduceEqDiff, if_false]
  rfl

/-- SYSW to XRET in handler state. -/
theorem exec_syswXret (hl : legalXret o = true) (hin : (img s.blk c u).handler = true) :
    let i := img s.blk c u
    let x := sreg i (fa o)
    exec (.syswXret u o) s = .next (became s (setImg s.blk c u
      (leaveHandler (addClamps (if x.toNat ≤ 1 then 0 else 1) i) (x != 0)))) := by
  intro i x
  rw [← countEv_clamps]
  refine (actUp_next (xretEff u o) s h.1).trans ?_
  rw [xretEff, hl, issue_effect s u c h]
  simp only [hin, if_true]
  rfl

end

/-- A resume code other than 0 resumes behind the instruction. -/
theorem leaveHandler_bne (i : UnitImg) (x : U64) : leaveHandler i (x != 0) =
    { i with handler := false, pc := if x = 0 then i.xpc else i.xpc + 8, run := .running } := by
  by_cases hx : x = 0 <;> simp [leaveHandler, hx]

/-- Settles O6: each instruction is its effect, and a resume code other than 0 resumes behind the instruction. -/
theorem systemRegisters : Obligations.SystemRegisters := by
  intro s u c o h b i x
  refine ⟨exec_sysr h, exec_sysw_seed h, exec_sysw_xvec h, fun hl hin => ?_⟩
  rw [exec_syswXret h hl hin, leaveHandler_bne]
  rfl

end Sys2Proof.Machine
end

section
/-!
The frame of the scalar instructions: what they leave of the image, of the other images and of the rest of the block,
and that nothing follows where nothing waits (R140, R141, R143, R144).
-/
namespace Sys2Proof.Machine

/-! ### The image -/

/-- Image `j` differs from `i` in the destination registers, the pc, the run state and the event counters at most. -/
def ScalarWrites (o : Ops) (i j : UnitImg) : Prop :=
  (∀ q, q ≠ fd o → sreg j q = sreg i q ∧ freg j q = freg i q) ∧
    { j with s := i.s, f := i.f, pc := i.pc, run := i.run, cnt := i.cnt } = i

section
variable {o : Ops} {i j : UnitImg}

theorem ScalarWrites.refl (o : Ops) (i : UnitImg) : ScalarWrites o i i := ⟨fun _ _ => ⟨rfl, rfl⟩, rfl⟩

theorem ScalarWrites.setS (h : ScalarWrites o i j) (x : U64) : ScalarWrites o i (setS j (fd o) x) := by
  obtain ⟨hregs, hrest⟩ := h
  refine ⟨fun q hq => ⟨?_, ?_⟩, ?_⟩
  · rw [sreg_setS, if_neg hq, ← (hregs q hq).1]
    exact ite_eq_right_iff.mpr fun hzero => by rw [sreg, if_pos hzero]
  · rw [freg_setS, (hregs q hq).2]
  · unfold Machine.setS
    split <;> exact hrest

theorem ScalarWrites.setF (h : ScalarWrites o i j) (x : U64) : ScalarWrites o i (setF j (fd o) x) := by
  obtain ⟨hregs, hrest⟩ := h
  exact ⟨fun q hq => ⟨by rw [sreg_setF, (hregs q hq).1], by rw [freg_setF, if_neg hq, (hregs q hq).2]⟩, hrest⟩

theorem ScalarWrites.cnt (h : ScalarWrites o i j) (n : Cnt) : ScalarWrites o i { j with cnt := n } := h

theorem ScalarWrites.goOn (h : ScalarWrites o i j) (pc : U64) (r : RunSt) :
    ScalarWrites o i { j with pc := pc, run := r } := h

end

/-! ### The block -/

theorem mem_tput {α : Type} [DecidableEq α] {t : Tbl α} {d v : α} {k : Nat} {e : Nat × α} (h : e ∈ tput t d k v) :
    e = (k, v) ∨ e ∈ t := by
  unfold tput at h
  split at h
  · exact .inr (List.mem_of_mem_filter h)
  · exact mem_tins t k v e h

/-- A unit that runs on is no waiting one. -/
theorem waiters_setImg {b : Block} (hnone : waiters b = []) (c : Nat) (u : UnitId) {j : UnitImg}
    (hj : isWaiting j.run = false) : waiters (setImg b c u j) = [] := by
  unfold waiters at hnone ⊢
  rw [setImg_running]
  split
  · rfl
  next d hrun =>
    simp only [hrun, List.map_eq_nil_iff, List.filter_eq_nil_iff] at hnone ⊢
    intro e he
    rcases mem_tput he with rfl | he
    · simp [hj]
    · exact hnone e he

/-- What follows a command of a unit that runs on, where no unit waits and no debug step is due: nothing. -/
theorem after_setImg {s : State} {u : UnitId} {c : Nat} (h : Executes s u c) (hnone : waiters s.blk = [])
    (hstep : s.blk.chip.stepOnce = none) {j : UnitImg} (hj : isWaiting j.run = false) :
    after s.blk (setImg s.blk c u j) = setImg s.blk c u j := by
  obtain ⟨hrun, hbegin, -⟩ := atInstr_of_executes h
  simp only [mayBegin, Bool.and_eq_true, Bool.not_eq_true'] at hbegin
  exact after_id _ _ c hrun hstep (waiters_setImg hnone c u hj) hbegin.2

theorem rdKey_setImg (b : Block) (c : Nat) (u : UnitId) (j : UnitImg) (k : Nat) :
    rdKey (setImg b c u j) k = rdKey b k := rfl

/-! ### The instructions -/

/-- An instruction of unit `u` leaves an image that runs on and differs from the old one in what a scalar instruction
may write. -/
def RunsScalar (s : State) (u : UnitId) (c : Nat) (o : Ops) (x : Out3) : Prop :=
  ∃ j, ScalarWrites o (img s.blk c u) j ∧ x = .next (became s (setImg s.blk c u { j with run := .running }))

/-- The frame of an instruction that leaves so. -/
theorem frame_of_runsScalar {s t : State} {u : UnitId} {c : Nat} {o : Ops} (h : Executes s u c)
    (hruns : RunsScalar s u c o (.next t)) :
    ∃ b, t = became s b ∧
      let i := img s.blk c u
      let j := img b c u
      SameButUnits s.blk b ∧ OtherImages s.blk b c u ∧ (∀ k, rdKey b k = rdKey s.blk k) ∧
        (∀ q, q ≠ fd o → sreg j q = sreg i q ∧ freg j q = freg i q) ∧
        { j with s := i.s, f := i.f, pc := i.pc, run := i.run, cnt := i.cnt } = i ∧
        (waiters s.blk = [] → s.blk.chip.stepOnce = none → t.blk = b) := by
  obtain ⟨j, ⟨hregs, hrest⟩, ht⟩ := hruns
  obtain rfl := Host.Outcome.next.inj ht
  refine ⟨_, rfl, ⟨rfl, rfl⟩, fun v k hne => img_setImg_other _ _ _ _ _ _ hne, fun k => rdKey_setImg _ _ _ _ k, ?_, ?_,
    fun hnone hstep => after_setImg h hnone hstep rfl⟩
  · rw [img_setImg_self]
    exact hregs
  · rw [img_setImg_self]
    exact hrest

section
variable {s : State} {u : UnitId} {c : Nat} {o : Ops}

/-- An image that retires runs on at the next word. -/
theorem runsScalar_ran {j : UnitImg} (hw : ScalarWrites o (img s.blk c u) j) :
    RunsScalar s u c o (.next (ran s c u j)) := by
  refine ⟨nextPc j, ?_, rfl⟩
  unfold nextPc
  split
  · exact hw
  · exact hw.goOn _ j.run

theorem runsScalar_jumpTo {j : UnitImg} (hw : ScalarWrites o (img s.blk c u) j) (t : U64) :
    RunsScalar s u c o (.next (became s (jumpTo s.blk c u j t))) :=
  ⟨{ j with pc := if j.builtin then j.pc else t }, hw.goOn _ j.run, rfl⟩

variable (h : Executes s u c)
include h

theorem runsScalar_intEff {legal : Ops → Bool} (hl : legal o = true) (op : Nat) (f : U64 → U64 → U64 × Nat) :
    RunsScalar s u c o (actUp (intEff op legal f u o) s) := by
  rw [actUp_intEff h hl]
  exact runsScalar_ran (((ScalarWrites.refl o _).setS _).cnt _)

theorem runsScalar_f64Eff {legal : Ops → Bool} (hl : legal o = true) (op : Nat) (f : FVal → FVal → FVal → FRes) :
    RunsScalar s u c o (actUp (f64Eff op legal f u o) s) := by
  rw [actUp_f64Eff h hl]
  exact runsScalar_ran (((ScalarWrites.refl o _).setF _).cnt _)

theorem runsScalar_branchEff (hl : legalBranch o = true) (op : Nat) (si un : U64 → U64 → Bool)
    (fp : FVal → FVal → Bool) : RunsScalar s u c o (actUp (branchEff op si un fp u o) s) := by
  rw [actUp_branchEff h hl]
  generalize (if bit o 36 then _ else _ : Bool) = taken
  cases taken
  · exact runsScalar_ran (.refl o _)
  · exact runsScalar_jumpTo (.refl o _) _

theorem runsScalar_addi : RunsScalar s u c o (exec (.addi u o) s) := by
  rw [exec_addi h]
  exact runsScalar_ran ((ScalarWrites.refl o _).setS _)

theorem runsScalar_jal (hl : legalJal o = true) : RunsScalar s u c o (exec (.jal u o) s) := by
  rw [exec_jal h hl]
  exact runsScalar_jumpTo ((ScalarWrites.refl o _).setS _) _

theorem runsScalar_jalr (hl : legalJalr o = true) : RunsScalar s u c o (exec (.jalr u o) s) := by
  rw [exec_jalr h hl]
  exact runsScalar_jumpTo (((ScalarWrites.refl o _).setS _).cnt _) _

end

/-- Settles O9: each instruction leaves one image that runs on, and of it only what a scalar instruction may write. -/
theorem scalarFrame : Obligations.ScalarFrame := by
  intro s t u c o ins h hins hx
  have hruns : RunsScalar s u c o (exec ins s) := by
    rcases hins with ⟨hmem, hl⟩ | ⟨rfl, hl⟩ | ⟨rfl, hl⟩ | rfl | ⟨hmem, hl⟩ | ⟨rfl, hl⟩ | ⟨rfl, hl⟩ | ⟨hmem, hl⟩ |
      ⟨rfl, hl⟩ | ⟨rfl, hl⟩ | ⟨hmem, hl⟩
    · simp only [List.mem_cons, List.not_mem_nil, or_false] at hmem
      rcases hmem with rfl | rfl | rfl | rfl | rfl | rfl | rfl | rfl
      all_goals exact runsScalar_intEff h hl _ _
    · exact runsScalar_intEff h hl _ _
    · exact runsScalar_intEff h hl _ _
    · exact runsScalar_addi h
    · simp only [List.mem_cons, List.not_mem_nil, or_false] at hmem
      rcases hmem with rfl | rfl | rfl | rfl
      all_goals exact runsScalar_branchEff h hl _ _ _ _
    · exact runsScalar_jal h hl
    · exact runsScalar_jalr h hl
    · simp only [List.mem_cons, List.not_mem_nil, or_false] at hmem
      rcases hmem with rfl | rfl | rfl | rfl
      all_goals exact runsScalar_f64Eff h hl _ _
    · exact runsScalar_f64Eff h hl _ _
    · exact runsScalar_f64Eff h hl _ _
    · simp only [List.mem_cons, List.not_mem_nil, or_false] at hmem
      rcases hmem with rfl | rfl
      all_goals exact runsScalar_f64Eff h hl _ _
  exact frame_of_runsScalar h (hx ▸ hruns)

end Sys2Proof.Machine
end

section
/-!
The element operations of the short-vector class (R40, R119, R146, R147, R149): the elements of a register as the
digits of its number, and what replacing some of them leaves.
-/
namespace Sys2Proof.Machine

/-! ### Digits -/

/-- Digit `k` of a number to base `B`, with what stands above and below it. -/
theorem eq_digits (x B k : Nat) : x = x / B ^ (k + 1) * B ^ (k + 1) + x / B ^ k % B * B ^ k + x % B ^ k := by
  have hhigh : x / B ^ k = x / B ^ (k + 1) * B + x / B ^ k % B := by
    rw [pow_succ, ← Nat.div_div_eq_div_mul, Nat.div_add_mod']
  calc x = x / B ^ k * B ^ k + x % B ^ k := (Nat.div_add_mod' x (B ^ k)).symm
    _ = (x / B ^ (k + 1) * B + x / B ^ k % B) * B ^ k + x % B ^ k := by rw [← hhigh]
    _ = _ := by ring

section
variable {B hi v lo k : Nat} (hlo : lo < B ^ k)
include hlo

theorem digits_lt (hv : v < B) : v * B ^ k + lo < B ^ (k + 1) :=
  calc v * B ^ k + lo < (v + 1) * B ^ k := by rw [Nat.add_mul, Nat.one_mul]; omega
    _ ≤ B * B ^ k := Nat.mul_le_mul_right _ hv
    _ = B ^ (k + 1) := (pow_succ' B k).symm

theorem digit_same (hv : v < B) : (hi * B ^ (k + 1) + v * B ^ k + lo) / B ^ k % B = v := by
  have hpos : 0 < B ^ k := by omega
  rw [show hi * B ^ (k + 1) + v * B ^ k + lo = lo + (hi * B + v) * B ^ k by ring, Nat.add_mul_div_right _ _ hpos,
    Nat.div_eq_of_lt hlo, Nat.zero_add, Nat.mul_add_mod_of_lt hv]

theorem digit_below {j : Nat} (hj : j < k) : (hi * B ^ (k + 1) + v * B ^ k + lo) / B ^ j % B = lo / B ^ j % B := by
  obtain ⟨d, rfl⟩ := Nat.exists_eq_add_of_lt hj
  have hpos : 0 < B ^ j := Nat.pos_of_ne_zero fun hzero => by simp [pow_add, hzero] at hlo
  rw [show hi * B ^ (j + d + 1 + 1) + v * B ^ (j + d + 1) + lo = lo + (hi * B + v) * B ^ d * B * B ^ j by ring,
    Nat.add_mul_div_right _ _ hpos, Nat.add_mul_mod_self_right]

theorem digit_above {j : Nat} (hj : k < j) (hv : v < B) :
    (hi * B ^ (k + 1) + v * B ^ k + lo) / B ^ j = hi / B ^ (j - (k + 1)) := by
  obtain ⟨d, rfl⟩ := Nat.exists_eq_add_of_lt hj
  have hlow := digits_lt hlo hv
  rw [show hi * B ^ (k + 1) + v * B ^ k + lo = (v * B ^ k + lo) + hi * B ^ (k + 1) by ring,
    show B ^ (k + d + 1) = B ^ (k + 1) * B ^ d by ring, ← Nat.div_div_eq_div_mul,
    Nat.add_mul_div_right _ _ (by omega), Nat.div_eq_of_lt hlow, Nat.zero_add, show k + d + 1 - (k + 1) = d by omega]

end

/-! ### Elements -/

section
variable {f : Fmt} {k : Nat} (hk : k < 128 / fmtWidth f) (x : BitVec 128) (v : Nat)
include hk

/-- Replacing element `k` replaces that digit of the number. -/
theorem toNat_vSetElem : (vSetElem f x k v).toNat =
    x.toNat / (2 ^ fmtWidth f) ^ (k + 1) * (2 ^ fmtWidth f) ^ (k + 1) +
      v % 2 ^ fmtWidth f * (2 ^ fmtWidth f) ^ k + x.toNat % (2 ^ fmtWidth f) ^ k := by
  have hsplit := eq_digits x.toNat (2 ^ fmtWidth f) k
  obtain ⟨q, hq⟩ : (2 ^ fmtWidth f) ^ (k + 1) ∣ 2 ^ 128 := by
    rw [← pow_mul]
    exact pow_dvd_pow 2 ((Nat.mul_le_mul_left _ hk).trans (Nat.mul_div_le 128 _))
  unfold vSetElem vElem
  rw [BitVec.toNat_ofNat, pow_mul]
  generalize hB : 2 ^ fmtWidth f = B at *
  have hpos : 0 < B := by rw [← hB]; positivity
  have hlow : v % B * B ^ k + x.toNat % B ^ k < B ^ (k + 1) :=
    digits_lt (Nat.mod_lt _ (pow_pos hpos k)) (Nat.mod_lt _ hpos)
  have hhigh : x.toNat / B ^ (k + 1) < q := Nat.div_lt_of_lt_mul (hq ▸ x.isLt)
  have hlt : (x.toNat / B ^ (k + 1) + 1) * B ^ (k + 1) ≤ 2 ^ 128 := by
    rw [hq, Nat.mul_comm (B ^ (k + 1))]
    exact Nat.mul_le_mul_right _ hhigh
  rw [Nat.add_mul, Nat.one_mul] at hlt
  generalize x.toNat / B ^ (k + 1) = hi, x.toNat / B ^ k % B = v0, x.toNat % B ^ k = lo at *
  rw [Nat.mod_eq_of_lt (by omega)]
  omega

theorem vElem_vSetElem_same : vElem f (vSetElem f x k v) k = v % 2 ^ fmtWidth f := by
  have hpos : 0 < 2 ^ fmtWidth f := by positivity
  rw [vElem, toNat_vSetElem hk, pow_mul]
  exact digit_same (Nat.mod_lt _ (pow_pos hpos k)) (Nat.mod_lt _ hpos)

/-- The other elements stay. -/
theorem vElem_vSetElem_other {j : Nat} (hj : j ≠ k) : vElem f (vSetElem f x k v) j = vElem f x j := by
  have hpos : 0 < 2 ^ fmtWidth f := by positivity
  have hlo : x.toNat % (2 ^ fmtWidth f) ^ k < (2 ^ fmtWidth f) ^ k := Nat.mod_lt _ (pow_pos hpos k)
  rw [vElem, vElem, toNat_vSetElem hk, pow_mul]
  conv_rhs => rw [eq_digits x.toNat (2 ^ fmtWidth f) k]
  rcases Nat.lt_or_gt_of_ne hj with hbelow | habove
  · rw [digit_below hlo hbelow, digit_below hlo hbelow]
  · rw [digit_above hlo habove (Nat.mod_lt _ hpos), digit_above hlo habove (Nat.mod_lt _ hpos)]

end

/-! ### Element operations -/

section
variable (f : Fmt) (mode : RMode) (g : FVal → FVal → FVal → FRes) (x y z : BitVec 128)

/-- The exact result of element `k`. -/
def elemResult (k : Nat) : FRes :=
  g (fdecode f (vElem f x k)) (fdecode f (vElem f y k)) (fdecode f (vElem f z k))

/-- The first n elements are the rounded results, the others stay. -/
theorem vElem_vMapN (d : BitVec 128) (e : Ev) {n k : Nat} (hn : n ≤ 128 / fmtWidth f) :
    vElem f (vMapN f mode g x y z n d e).1 k =
      if k < n then (finish f mode (elemResult f g x y z k)).1 % 2 ^ fmtWidth f else vElem f d k := by
  induction n with
  | zero => rfl
  | succ n ih =>
    rw [vMapN]
    by_cases hk : k = n
    · subst hk
      rw [vElem_vSetElem_same (by omega), if_pos (by omega), elemResult]
    · rw [vElem_vSetElem_other (by omega) _ _ hk, ih (by omega)]
      exact if_congr (by omega) rfl rfl

/-- The events are those of the n roundings, in order. -/
theorem vMapN_events (d : BitVec 128) (e : Ev) (n : Nat) : (vMapN f mode g x y z n d e).2 =
    ((List.range n).map fun k => (finish f mode (elemResult f g x y z k)).2).foldl evAdd e := by
  induction n with
  | zero => rfl
  | succ n ih =>
    rw [vMapN, ih, List.range_succ, List.map_append, List.foldl_append]
    rfl

end

section
variable {s : State} {t : Fin 1152} {c : Nat} {o : Ops} (h : Executes s (.tile t) c)
include h

theorem exec_vsetvl (hl : legalVsetvl o = true) :
    let i := img s.blk c (.tile t)
    let n := min (sreg i (fa o)).toNat (128 / fmtWidth (vFmt o))
    exec (.vsetvl (.tile t) o) s = .next (became s (retire (svuTouch s.blk (.tile t)) c (.tile t)
      { setS i (fd o) (BitVec.ofNat 64 n) with vl := BitVec.ofNat 8 n })) :=
  actUp_svIssue (f := vsetvlEff (.tile t) o) h hl rfl

/-- An element operation writes d, whose first n elements are the rounded results, and counts their events. -/
theorem actUp_vElementwise {legal : Ops → Bool} (hl : legal o = true) (op : Nat) (g : FVal → FVal → FVal → FRes) :
    let i := img s.blk c (.tile t)
    let f := vFmt o
    let r := elemResult f g (vreg i (fa o)) (vreg i (fb o)) (vreg i (fc o))
    ∃ d, actUp (vElementwise op legal g (.tile t) o) s =
        .next (became s (retire (svuTouch s.blk (.tile t)) c (.tile t) (countEv (setV i (fd o) d)
          (((List.range (vElems i f)).map fun k => (finish f (vMode o) (r k)).2).foldl evAdd
            (evClamps (vOver i f)))))) ∧
      ∀ k < 128 / fmtWidth f, vElem f d k =
        if k < vElems i f then (finish f (vMode o) (r k)).1 % 2 ^ fmtWidth f else vElem f (vreg i (fd o)) k := by
  intro i f r
  refine ⟨_, (actUp_svIssue h hl rfl).trans ?_, fun k _ =>
    vElem_vMapN f (vMode o) g _ _ _ _ (evClamps (vOver i f)) (min_le_right _ _)⟩
  dsimp only
  rw [vCount_eq, vMapN_events]

end

/-- Settles O14: each element operation is the shared one with its own operation. -/
theorem shortVectorResults : Obligations.ShortVectorResults := by
  intro s t c o h
  refine ⟨exec_vsetvl h, fun hl => ⟨?_, ?_⟩, fun hl => ?_, fun hl => ⟨?_, ?_⟩⟩
  all_goals exact actUp_vElementwise h hl _ _

end Sys2Proof.Machine
end

section
/-!
LD and ST (R142, R168): what each does where nothing stands in its way, and what a store leaves of memory.
-/
namespace Sys2Proof.Machine

theorem legalStore_legalMem {u : UnitId} {o : Ops} (hl : legalStore u o = true) : legalMem u o = true := by
  rw [legalStore, Bool.and_eq_true] at hl
  exact hl.1

/-- ST writes as many bytes as its access has: a file other than s takes its whole register (R142). -/
theorem length_storeData {u : UnitId} {o : Ops} (hl : legalMem u o = true) (i : UnitImg) :
    (storeData i o).length = accessSize o := by
  simp only [legalMem, Bool.and_eq_true, Bool.or_eq_true, beq_iff_eq, bne_iff_ne, ne_eq] at hl
  obtain ⟨⟨⟨-, hfile⟩, hsize⟩, -⟩ := hl
  unfold storeData accessSize
  by_cases hs : bits o 40 2 = 0
  · simp [hs]
  · by_cases hf : bits o 40 2 = 1
    · have hthree : bits o 38 2 = 3 := (hsize.resolve_left hs).1
      simp [hf, hthree]
    · have hbound : bits o 40 2 < 4 := (o.extractLsb' 40 2).isLt
      have ht : bits o 40 2 = 2 := by omega
      simp [ht]

/-- What LD leaves, by what its read met. -/
def loadDone (c : Nat) (u : UnitId) (i : UnitImg) (o : Ops) : ReadOut → Block
  | .ok b1 => retire b1 c u (accessed (loadReg i o (loadedBytes b1 c i (memAddr i o) (accessSize o))))
  | .refused b1 => retire b1 c u (countRefusal (loadReg i o (List.replicate (accessSize o) 0)) (memAddr i o) 6)
  | .tileFault b1 => b1

section
variable {s : State} {u : UnitId} {c : Nat} (h : Executes s u c) {o : Ops} {i : UnitImg} (hi : img s.blk c u = i)
  (halign : accessSize o = 32 → (memAddr i o).toNat % 32 = 0)
  (hmapped : badByte s.blk c (memAddr i o) (accessSize o) = none)
include h hi halign hmapped

/-- LD of a mapped address whose bytes are there is what its read meets. -/
theorem exec_ld (hl : legalMem u o = true) (hcome : missing s.blk c i (memAddr i o) (accessSize o) = false)
    {r : ReadOut} (hread : meetRead s.blk c u (memAddr i o) (accessSize o) = r) :
    exec (.ld u o) s = .next (became s (loadDone c u i o r)) := by
  subst hi hread
  have hok : (decide (accessSize o = 32) && (memAddr (img s.blk c u) o).toNat % 32 != 0) = false := by
    simpa using halign
  refine (actUp_next (ldEff u o) s h.1).trans ?_
  rw [ldEff, hl, issue_effect s u c h]
  simp only [hok, hmapped, hcome, Bool.false_eq_true, if_false]
  rfl

/-- ST to this module is its store, where no word refuses it. -/
theorem exec_st (hl : legalStore u o = true) (hown : faModule (memAddr i o) = s.blk.geo.own)
    (hmet : storeMet s.blk c (memAddr i o) (accessSize o) = none) (hdone : accessDone i = true) :
    exec (.st u o) s =
      .next (became s (retire (storeOwn s.blk c (memAddr i o) (storeData i o)) c u (accessed i))) := by
  subst hi
  have hok : (decide (accessSize o = 32) && (memAddr (img s.blk c u) o).toNat % 32 != 0) = false := by
    simpa using halign
  rw [← length_storeData (legalStore_legalMem hl) (img s.blk c u)] at hmet
  refine (actUp_next (orBuiltin .store u (stEff u o)) s h.1).trans ?_
  rw [orBuiltin_of_executes h, stEff, hl, issue_effect s u c h]
  simp only [hok, hmapped, Bool.false_eq_true, if_false]
  rw [storeBytes_own hown hmet, img_storeOwn hmet, retireAfter, if_pos hdone]

end

/-- Settles O3: a load is what its read meets, and a store is stored where no word refuses it. -/
theorem loadAndStore : Obligations.LoadAndStore := by
  intro s u c o h i a n halign hmapped
  refine ⟨fun hl hcome => ?_, fun hl hown hmet hdone => exec_st h rfl halign hmapped hl hown hmet hdone⟩
  have hload {r : ReadOut} (hread : meetRead s.blk c u a n = r) :
      exec (.ld u o) s = .next (became s (loadDone c u i o r)) := exec_ld h rfl halign hmapped hl hcome hread
  exact ⟨fun _ => hload, fun _ => hload⟩

/-! ### Bytes of memory -/

/-- Blocks with the same stored bytes and the same undefined pages read alike. -/
theorem rdKey_congr {b d : Block} (hmem : d.mem = b.mem) (hstale : d.stale = b.stale) (k : Nat) :
    rdKey d k = rdKey b k := by
  rw [rdKey, rdKey, hmem, unlisted, unlisted, hstale]

theorem rdKey_dropErr (b : Block) (key n k : Nat) : rdKey (dropErr b key n) k = rdKey b k := rfl

theorem rdKey_sendWakes (b : Block) (key n k : Nat) : rdKey (sendWakes b key n) k = rdKey b k :=
  rdKey_congr (sendWakes_mem b key n) (sendWakes_stale b key n) k

theorem rdKey_mcCount (b : Block) (l n : Nat) (write : Bool) (k : Nat) :
    rdKey (mcCount b l n write) k = rdKey b k := by
  unfold mcCount
  split
  · rfl
  · split <;> rfl

theorem rdKey_cacheUse (b : Block) (l n : Nat) (write : Bool) (k : Nat) :
    rdKey (cacheUse b l n write) k = rdKey b k := by
  unfold cacheUse
  split
  · dsimp only
    split <;> rfl
  · rfl

/-- What a write of consecutive bytes leaves at a key. -/
theorem rdKey_wrKeys (b : Block) (key k : Nat) (x : List Byte) :
    rdKey (wrKeys b key x) k = if key ≤ k ∧ k < key + x.length then x.getD (k - key) 0 else rdKey b k := by
  rw [wrKeys, rdKey_sendWakes, rdKey_wrList, rdKey_dropErr]

/-- A write that meets no physical error reads nothing first. -/
theorem mergeRead_clean {b : Block} {key n : Nat} (hclean : errWords b key n = []) : mergeRead b key n = (b, none) := by
  simp only [mergeRead, reachedErrs, hclean, List.filter_nil]
  split <;> rfl

theorem rdKey_writeMem {b : Block} {key : Nat} {x : List Byte} (hclean : errWords b key x.length = []) (l k : Nat) :
    rdKey (writeMem b key l x).1 k =
      if key ≤ k ∧ k < key + x.length then x.getD (k - key) 0 else rdKey b k := by
  simp only [writeMem, mergeRead_clean hclean]
  rw [rdKey_wrKeys, rdKey_cacheUse, rdKey_mcCount]

section
variable {b : Block} {c : Nat} {a : U64} {key n : Nat} {x : List Byte}

theorem faModule_of_mem (hw : whereIs b c a = .mem key) : faModule a = b.geo.own := by
  unfold whereIs at hw
  split at hw
  · assumption
  · cases hw

theorem storeMet_clean (hw : whereIs b c a = .mem key) (hclean : errWords b key n = []) : storeMet b c a n = none := by
  simp only [storeMet, hw, mergeRead_clean hclean]

/-- A store to memory whose words hold no physical error writes its bytes and no other. -/
theorem rdKey_storeOwn (hw : whereIs b c a = .mem key) (hclean : errWords b key x.length = []) (k : Nat) :
    rdKey (storeOwn b c a x) k = if key ≤ k ∧ k < key + x.length then x.getD (k - key) 0 else rdKey b k := by
  simp only [storeOwn, hw]
  exact rdKey_writeMem hclean _ k

end

theorem rdKey_retire (b : Block) (c : Nat) (u : UnitId) (i : UnitImg) (k : Nat) :
    rdKey (retire b c u i) k = rdKey b k := rfl

/-- The image once an instruction has retired that only closed its access. -/
theorem retired_accessed_frame (i : UnitImg) :
    { ({ nextPc (accessed i) with run := .running } : UnitImg) with
      pc := i.pc, run := i.run, rbuf := i.rbuf, rbad := i.rbad } = i := by
  unfold nextPc
  split <;> rfl

/-- Settles O10: the store writes its bytes and no image, and retiring writes the pc of one. -/
theorem storeFrame : Obligations.StoreFrame := by
  intro s t u c o key h hl i a n halign hmapped hdone hwhere hclean hx
  have hlen : (storeData i o).length = n := length_storeData (legalStore_legalMem hl) i
  have hmet : storeMet s.blk c a n = none := storeMet_clean hwhere hclean
  rw [exec_st h rfl halign hmapped hl (faModule_of_mem hwhere) hmet hdone] at hx
  obtain rfl := Host.Outcome.next.inj hx
  have hread (k : Nat) : rdKey (retire (storeOwn s.blk c a (storeData i o)) c u (accessed i)) k =
      if key ≤ k ∧ k < key + n then (storeData i o).getD (k - key) 0 else rdKey s.blk k := by
    rw [rdKey_retire, rdKey_storeOwn hwhere (hlen ▸ hclean), hlen]
  refine ⟨_, rfl, rfl, fun v k hne => ?_, fun k hk => ?_, fun q hq => ?_, ?_⟩
  · rw [retire_other _ _ _ _ _ _ hne, img_storeOwn (hlen ▸ hmet)]
  · exact (hread k).trans (if_neg (by omega))
  · refine (hread (key + q)).trans ((if_pos (by omega)).trans ?_)
    rw [Nat.add_sub_cancel_left]
  · rw [retire_img]
    exact retired_accessed_frame i

end Sys2Proof.Machine
end

section
/-!
Remote operations and the Derrick's submissions, as a unit issues them (R153, R192 to R195, R200, R202, R205, R228).
-/
namespace Sys2Proof.Machine

/-! ### PUT, PUTS, GET and RADD -/

/-- A remote operation that can leave has its effect on the data of its source. -/
theorem remoteIssue_ready {s : State} {u : UnitId} {c : Nat} (h : Executes s u c) {op : Nat} {o : Ops}
    {ranges : UnitImg → List (U64 × Nat)} {src : UnitImg → U64 × Nat} {b1 : Block} {x : List Byte}
    (eff : Nat → UnitImg → List Byte → Block → Block)
    (hready : RemoteReady s.blk c u (ranges (img s.blk c u)) (src (img s.blk c u)) b1 x) :
    remoteIssue s.blk u op o true ranges src eff = eff c (img s.blk c u) x b1 := by
  obtain ⟨hmapped, hroom, hdata⟩ := hready
  simp only [remoteIssue, issue_effect s u c h, hmapped, hroom, hdata, Bool.false_eq_true, if_false]

/-- An address that is used clamps where its module is another one (R153, R205). -/
theorem rangeClamps_eq (b : Block) (a n : U64) :
    rangeClamps b a n = (if n = 0 ∨ faModule a = b.geo.own then 0 else 1) + (byteCount n).2 := by
  unfold rangeClamps localOp
  by_cases hn : n = 0 <;> by_cases hown : faModule a = b.geo.own <;> simp [hn, hown]

theorem getRanges_eq (b : Block) (o : Ops) (i : UnitImg) :
    getRanges b o i = getDest b o i :: ((getCounter b i o).1.map fun a => (a, 8)).toList := by
  unfold getRanges
  cases (getCounter b i o).1 <;> rfl

/-- RADD of some element has a count above zero, so that its source address is used. -/
theorem raddClamps_eq (b : Block) (kind : Nat) (a n : U64) (j k l : Nat) :
    (if (raddCount kind n).1 = 0 then 0 else (localOp b a).2 + j + k + l) =
      if (raddCount kind n).1 = 0 then 0 else (if n = 0 ∨ faModule a = b.geo.own then 0 else 1) + j + k + l := by
  by_cases hnone : (raddCount kind n).1 = 0
  · rw [if_pos hnone, if_pos hnone]
  · have hn : n ≠ 0 := fun hzero => hnone (by simp [raddCount, hzero])
    have hclamp : (localOp b a).2 = if n = 0 ∨ faModule a = b.geo.own then 0 else 1 := by
      rw [localOp, apply_ite Prod.snd]
      exact if_congr (or_iff_right hn).symm rfl rfl
    rw [hclamp]

section
variable {s : State} {u : UnitId} {c : Nat} (h : Executes s u c) {o : Ops} {b1 : Block} {x : List Byte}
include h

theorem exec_put (hl : legalPut o = true)
    (hready : RemoteReady s.blk c u [putSrc s.blk o (img s.blk c u)] (putSrc s.blk o (img s.blk c u)) b1 x) :
    let i := img s.blk c u
    exec (.put u o) s =
      .next (became s (startRetire b1 c u (putClamps b1 o i) .plain (putPieces (sreg i (fb o)) x))) := by
  refine (actUp_next (putEff u o) s h.1).trans ?_
  rw [putEff, hl, remoteIssue_ready h _ hready]

theorem exec_puts (hl : legalPuts o = true)
    (hready : RemoteReady s.blk c u [putSrc s.blk o (img s.blk c u)] (putSrc s.blk o (img s.blk c u)) b1 x) :
    let i := img s.blk c u
    exec (.puts u o) s = .next (became s (startRetire b1 c u (putClamps b1 o i + (putsCounter i o).2)
      (.signal (putsCounter i o).1 (sreg i (fd o))) (putPieces (sreg i (fb o)) x))) := by
  refine (actUp_next (orBuiltin .puts u (putsEff u o)) s h.1).trans ?_
  rw [orBuiltin_of_executes h, putsEff, hl, remoteIssue_ready h _ hready]

theorem exec_get (hl : legalGet o = true)
    (hready : RemoteReady s.blk c u (getRanges s.blk o (img s.blk c u)) ((getDest s.blk o (img s.blk c u)).1, 0) b1 x) :
    let i := img s.blk c u
    let d := getDest b1 o i
    let a := sreg i (fa o)
    exec (.get u o) s = .next (became s (startRetire b1 c u
      (rangeClamps b1 (sreg i (fb o)) (sreg i (fc o)) + (getCounter b1 i o).2)
      (.get (getCounter b1 i o).1) ((cuts a d.2).map fun p => (p.1, .get p.2, d.1 + (p.1 - a))))) := by
  refine (actUp_next (getEff u o) s h.1).trans ?_
  rw [getEff, hl, remoteIssue_ready h _ hready]

theorem exec_radd (hl : legalRadd o = true)
    (hready : RemoteReady s.blk c u [raddSrc s.blk o (img s.blk c u)] (raddSrc s.blk o (img s.blk c u)) b1 x) :
    let i := img s.blk c u
    let kind := bits o 0 4
    let n := raddCount kind (sreg i (fc o))
    let d := alignTo (raddDest kind) (sreg i (fb o))
    let k := if kind = 5 then raddK (sreg i (fe o)) else (0, 0)
    exec (.radd u o) s = .next (became s (startRetire b1 c u
      (if n.1 = 0 then 0 else (localOp b1 (sreg i (fa o))).2 + n.2 + d.2 + k.2) .plain
      (raddPieces kind (bits o 4 4) k.1 d.1 n.1 x))) := by
  refine (actUp_next (orBuiltin .add u (raddEff u o)) s h.1).trans ?_
  rw [orBuiltin_of_executes h, raddEff, hl, remoteIssue_ready h _ hready]

end

/-- Settles O20: each operation is the shared issue; its clamps are those of the operands it uses. -/
theorem remoteOperationsStart : Obligations.RemoteOperationsStart := by
  intro s u c o b1 x h b i a d count n ctr kind elems to_ k from_ dst foreign
  have hput : putClamps b1 o i = foreign a + n.2 := rangeClamps_eq b1 a count
  have hget : rangeClamps b1 d count = foreign d + n.2 := rangeClamps_eq b1 d count
  refine ⟨fun hl hready => ?_, fun hl hready => ?_, fun hl hready => ?_, fun hl hready => ?_⟩
  · rw [exec_put h hl hready, hput]
  · rw [exec_puts h hl hready, hput]
  · rw [← hget]
    exact exec_get h hl (by rw [getRanges_eq]; exact hready)
  · rw [← raddClamps_eq b1 kind a count elems.2 to_.2 k.2]
    exact exec_radd h hl hready

/-! ### DSUB and DPOLL -/

section
variable {s : State} {t : Fin 1152} {c : Nat} (h : Executes s (.tile t) c) {o : Ops} {i : UnitImg}
  (hi : img s.blk c (.tile t) = i)
include h hi

/-- DSUB to a region without a Derrick writes all ones. -/
theorem exec_dsub_absent (hl : legalDsub o = true)
    (habsent : s.blk.geo.derricks.getLsbD (regionOp (sreg i (fe o))).1 = false) : exec (.dsub (.tile t) o) s =
      .next (ran s c (.tile t) (addClamps (1 + (regionOp (sreg i (fe o))).2) (setS i (fd o) (BitVec.allOnes 64)))) := by
  subst hi
  rw [← countEv_clamps]
  refine (actUp_next (dsubEff (.tile t) o) s h.1).trans ?_
  simp only [dsubEff, isTile, hl, Bool.and_self, issue_effect s (.tile t) c h, habsent, Bool.not_false, if_true]
  rfl

section
variable (hl : legalDsub o = true) (hhere : s.blk.geo.derricks.getLsbD (regionOp (sreg i (fe o))).1 = true)
  (hmapped : ((dsubRanges s.blk i o).filterMap fun r => badByte s.blk c r.1 r.2) = [])
include hl hhere hmapped

/-- With fewer than 256 queued it queues a submission and writes its number. -/
theorem exec_dsub_queued
    (hroom : (stored (drkOf s.blk (regionOp (sreg i (fe o))).1)).length +
      (drkOf s.blk (regionOp (sreg i (fe o))).1).subs.length < 256) :
    let k := (regionOp (sreg i (fe o))).1
    let d := drkOf s.blk k
    let n := tget i.subs 0 k
    let q : DrkSub :=
      { ctx := c, step := (ctxOf s.blk c).step.toNat, tile := t.val, sub := n,
        addr := (localOp s.blk (sreg i (fa o))).1, len := (dsubLen (sreg i (fb o))).1,
        counter := (dsubCounter s.blk (sreg i (fc o))).1 }
    exec (.dsub (.tile t) o) s = .next (became s (retire (setDrk s.blk k { d with subs := d.subs ++ [q] }) c (.tile t)
      (addClamps (dsubClamps s.blk i o)
        (setS { i with subs := tput i.subs 0 k (n + 1) } (fd o) (BitVec.ofNat 64 n))))) := by
  subst hi
  intro k d n q
  rw [← countEv_clamps]
  refine (actUp_next (dsubEff (.tile t) o) s h.1).trans ?_
  simp only [dsubEff, isTile, hl, Bool.and_self, issue_effect s (.tile t) c h, hhere, hmapped, Bool.not_true,
    Bool.false_eq_true, if_false, if_neg (Nat.not_le.mpr hroom)]
  rfl

/-- With 256 queued it waits at issue. -/
theorem exec_dsub_full
    (hfull : 256 ≤ (stored (drkOf s.blk (regionOp (sreg i (fe o))).1)).length +
      (drkOf s.blk (regionOp (sreg i (fe o))).1).subs.length) :
    exec (.dsub (.tile t) o) s = .next (became s (park s.blk c (.tile t) i .room (mkWord 0x18 0x00 o))) := by
  subst hi
  refine (actUp_next (dsubEff (.tile t) o) s h.1).trans ?_
  simp only [dsubEff, isTile, hl, Bool.and_self, issue_effect s (.tile t) c h, hhere, hmapped, Bool.not_true,
    Bool.false_eq_true, if_false, ge_iff_le, if_pos hfull]

end

/-- What DPOLL writes, and the clamps of what it uses. -/
def dpollResult (b : Block) (c k : Nat) (e : Nat × Nat) : U64 × Nat :=
  if b.geo.derricks.getLsbD k = false then (BitVec.allOnes 64, 1)
  else match tlook (drkOf b k).envs (envKey c e.1) with
    | some x => (x.status, e.2)
    | none => (0, 1 + e.2)

theorem exec_dpoll (hl : legalDpoll o = true) :
    let k := regionOp (sreg i (fe o))
    let r := dpollResult s.blk c k.1 (envOp (sreg i (fa o)))
    exec (.dpoll (.tile t) o) s = .next (ran s c (.tile t) (addClamps (r.2 + k.2) (setS i (fd o) r.1))) := by
  subst hi
  dsimp only
  rw [← countEv_clamps]
  refine (actUp_next (dpollEff (.tile t) o) s h.1).trans ?_
  simp only [dpollEff, isTile, hl, Bool.and_self, issue_effect s (.tile t) c h, dpollResult]
  cases hhere : s.blk.geo.derricks.getLsbD (regionOp (sreg (img s.blk c (.tile t)) (fe o))).1 with
  | false => rfl
  | true =>
    cases tlook (drkOf s.blk (regionOp (sreg (img s.blk c (.tile t)) (fe o))).1).envs
      (envKey c (envOp (sreg (img s.blk c (.tile t)) (fa o))).1) with
    | some x => rfl
    | none => rfl

end

/-- Settles O24: DSUB by whether a Derrick is there and has room, DPOLL by what it finds of the environment. -/
theorem derrickSubmitAndPoll : Obligations.DerrickSubmitAndPoll := by
  intro s t c o h u b i k e here
  exact ⟨fun hl => ⟨exec_dsub_absent h rfl hl, fun hhere hmapped =>
    ⟨exec_dsub_queued h rfl hl hhere hmapped, exec_dsub_full h rfl hl hhere hmapped⟩⟩, exec_dpoll h rfl⟩

end Sys2Proof.Machine
end

section
/-!
Context commands (R160, R402, R425 to R427, R529, R533): one that is accepted answers what its run gives, and what the
run of each gives where its conditions hold.
-/
namespace Sys2Proof.Machine

section
variable {s : State} (hup : Up s) {h : Cmd} {x : Session} {op : Nat} {roles : List Role} {f : Block → Session → Run}
include hup

/-- An accepted command answers its run, without a counter where it is not critical. -/
theorem actUp_command_plain (ha : Accepted s.blk op false roles h x) {r : Run} (hr : f s.blk x = r) :
    actUp (command op false roles h f) s = .next (answered s op h r.1 r.2) := by
  rw [actUp_next _ s hup, command_accepted _ x op false roles h f ha]
  simp only [Bool.false_eq_true, if_false, hr]
  rfl

/-- A critical one runs once its counter is taken. -/
theorem actUp_command_critical (ha : Accepted s.blk op true roles h x) {r : Run}
    (hr : f (afterCounter s.blk h) x = r) :
    actUp (command op true roles h f) s = .next (answered s op h r.1 r.2) := by
  rw [actUp_next _ s hup, command_accepted _ x op true roles h f ha]
  simp only [if_true, hr]
  rfl

end

theorem sized_of_length {h : Cmd} {n : Nat} (hlen : h.params.length = n) (b : Block) (r : Run) : sized h n b r = r :=
  if_pos hlen

section
variable {h : Cmd} {b : Block} {y : Ctx} {x : Session} (hy : tlook b.ctxs (ctxPar h 0).1 = some y)
include hy

/-- A command of the session that holds the context runs on it. -/
theorem onContext_holds (anyOp : Bool) (hholds : holds y h.session x = true) (f : Block → Nat → Run) :
    onContext h anyOp b x f = withClamps (ctxPar h 0).2 (f b (ctxPar h 0).1) := by
  simp only [onContext, hy, hholds, Bool.true_or, if_true]

/-- One that any operator may issue runs for an operator. -/
theorem onContext_operator (hop : x.role = .operator) (f : Block → Nat → Run) :
    onContext h true b x f = withClamps (ctxPar h 0).2 (f b (ctxPar h 0).1) := by
  simp only [onContext, hy, hop, beq_self_eq_true, Bool.and_self, Bool.or_true, if_true]

end

/-- Only an operator issues what operators alone may issue. -/
theorem role_of_accepted {b : Block} {op : Nat} {critical : Bool} {h : Cmd} {x : Session}
    (ha : Accepted b op critical operatorOnly h x) : x.role = .operator := by
  obtain ⟨-, -, -, -, -, hrole, -⟩ := ha
  simpa [operatorOnly] using hrole

/-- What PROGRAM_LOAD answers once its image has been read: done, or refused 0x1B with the fault of the word that cannot
be corrected. -/
def imageRead (c l : Nat) (r : Block × Option Nat) : Run :=
  match r.2 with
  | none => done (loadImage r.1 c l)
  | some e => refuse (memFault r.1 e) 0x1B

theorem imageRead_ok {c l : Nat} {r : Block × Option Nat} (hr : r.2 = none) :
    imageRead c l r = done (loadImage r.1 c l) := by
  rw [imageRead, hr]

theorem imageRead_bad {c l e : Nat} {r : Block × Option Nat} (hr : r.2 = some e) :
    imageRead c l r = refuse (memFault r.1 e) 0x1B := by
  rw [imageRead, hr]

section
variable {s : State} (hup : Up s) {h : Cmd} {x : Session} {y : Ctx}
include hup

/-- CTX_CREATE of parameters that nothing refuses. -/
theorem exec_ctxCreate (ha : Accepted s.blk 0x0020 true operatorOnly h x)
    (hlen : h.params.length = 0x20 + 16 * (ctxReq h).1.ranges.length)
    (hmay : mayCreate (afterCounter s.blk h) (ctxReq h).1.epoch = true)
    (hok : createRefusal (afterCounter s.blk h) (ctxReq h).1 = none) :
    let d := withClamps (ctxReq h).2 (done (createCtx (afterCounter s.blk h) h.session (ctxReq h).1))
    exec (.ctxCreate h) s = .next (answered s 0x0020 h d.1 d.2) := by
  refine actUp_command_critical hup ha ?_
  simp only [hlen, hmay, hok, ne_eq, not_true_eq_false, if_false, Bool.not_true, Bool.false_eq_true]

section
variable (hone : h.params.length = 1)
include hone

theorem exec_ctxDestroy (ha : Accepted s.blk 0x0021 true operatorOnly h x)
    (hy : tlook (afterCounter s.blk h).ctxs (ctxPar h 0).1 = some y) :
    let d := withClamps (ctxPar h 0).2 (done (destroyCtx (afterCounter s.blk h) (ctxPar h 0).1))
    exec (.ctxDestroy h) s = .next (answered s 0x0021 h d.1 d.2) :=
  actUp_command_critical hup ha ((sized_of_length hone _ _).trans (onContext_operator hy (role_of_accepted ha) _))

theorem exec_ctxRun (ha : Accepted s.blk 0x0022 false operatorOnly h x) (hy : tlook s.blk.ctxs (ctxPar h 0).1 = some y)
    (hholds : holds y h.session x = true) {d : Block} (hd : runCtx s.blk (ctxPar h 0).1 = some d) :
    let r := withClamps (ctxPar h 0).2 (done d)
    exec (.ctxRun h) s = .next (answered s 0x0022 h r.1 r.2) := by
  refine actUp_command_plain hup ha ((sized_of_length hone _ _).trans ((onContext_holds hy _ hholds _).trans ?_))
  rw [hd, orState]

theorem exec_ctxDrain (ha : Accepted s.blk 0x0023 false operatorOnly h x)
    (hy : tlook s.blk.ctxs (ctxPar h 0).1 = some y) {d : Block} (hd : drainCtx s.blk (ctxPar h 0).1 = some d) :
    let r := withClamps (ctxPar h 0).2 (done d)
    exec (.ctxDrain h) s = .next (answered s 0x0023 h r.1 r.2) := by
  refine actUp_command_plain hup ha
    ((sized_of_length hone _ _).trans ((onContext_operator hy (role_of_accepted ha) _).trans ?_))
  rw [hd, orState]

theorem exec_resume (ha : Accepted s.blk 0x0025 false operatorOwner h x)
    (hy : tlook s.blk.ctxs (ctxPar h 0).1 = some y) (hholds : holds y h.session x = true) {d : Block}
    (hd : resumeCtx s.blk (ctxPar h 0).1 = some d) :
    let r := withClamps (ctxPar h 0).2 (done d)
    exec (.resume h) s = .next (answered s 0x0025 h r.1 r.2) := by
  refine actUp_command_plain hup ha ((sized_of_length hone _ _).trans ((onContext_holds hy _ hholds _).trans ?_))
  rw [hd, orState]

/-- STREAM_ATTACH: the bound owner attaches to a confidential context, an operator to another. -/
theorem exec_streamAttach (ha : Accepted s.blk 0x0026 false operatorOwner h x)
    (hy : tlook s.blk.ctxs (ctxPar h 0).1 = some y)
    (hmay : y.confidential = true ∧ x.role = .owner ∧ y.ownerKey = some x.peer ∨
      y.confidential = false ∧ x.role = .operator) :
    let r := withClamps (ctxPar h 0).2 (done (attachCtx s.blk (ctxPar h 0).1 h.session))
    exec (.streamAttach h) s = .next (answered s 0x0026 h r.1 r.2) := by
  refine actUp_command_plain hup ha ((sized_of_length hone _ _).trans ?_)
  rcases hmay with ⟨hconf, hrole, hkey⟩ | ⟨hconf, hrole⟩
  · simp only [hy, hconf, hrole, hkey, beq_self_eq_true, Bool.and_self, if_true]
  · simp only [hy, hconf, hrole, beq_self_eq_true, Bool.false_eq_true, if_false, if_true]

end

theorem exec_checkpoint (ha : Accepted s.blk 0x0024 false operatorOwner h x) (hlen : h.params.length = 7)
    (hy : tlook s.blk.ctxs (ctxPar h 0).1 = some y) (hholds : holds y h.session x = true)
    (hstep : (ctxOf s.blk (ctxPar h 0).1).step.toNat ≤ par h 1 6) :
    let c := (ctxPar h 0).1
    let r := withClamps (ctxPar h 0).2
      (done (setCtx s.blk c { ctxOf s.blk c with ckStep := some (par h 1 6) }))
    exec (.checkpoint h) s = .next (answered s 0x0024 h r.1 r.2) := by
  refine actUp_command_plain hup ha ((sized_of_length hlen _ _).trans ((onContext_holds hy _ hholds _).trans ?_))
  simp only [if_neg (Nat.not_lt.mpr hstep)]

theorem exec_programLoad (ha : Accepted s.blk 0x0030 true operatorOnly h x) (hlen : h.params.length = 0x50)
    (hy : tlook (afterCounter s.blk h).ctxs (ctxPar h 0).1 = some y) (hholds : holds y h.session x = true)
    (hst : (ctxOf (afterCounter s.blk h) (ctxPar h 0).1).st = .created ∨
      (ctxOf (afterCounter s.blk h) (ctxPar h 0).1).st = .reset)
    (hok : loadRefusal (afterCounter s.blk h) (ctxPar h 0).1 (par h 8 8) (h.params.drop 0x10) = none)
    {z : Run} (hz : imageRead (ctxPar h 0).1 (par h 8 8) (readOwn (afterCounter s.blk h) (par h 8 8)
      (rdNat (afterCounter s.blk h) (par h 8 8 + 8) 8)).1 = z) :
    let r := withClamps (ctxPar h 0).2 z
    exec (.programLoad h) s = .next (answered s 0x0030 h r.1 r.2) := by
  subst hz
  refine actUp_command_critical hup ha ((sized_of_length hlen _ _).trans ((onContext_holds hy _ hholds _).trans ?_))
  simp only [if_pos hst, hok]
  rfl

end

/-- Settles O43: each command is accepted and answers its run. -/
theorem contextCommands : Obligations.ContextCommands := by
  intro s h x y hup b b' c did
  refine ⟨fun ha hlen hmay hok => exec_ctxCreate hup ha hlen hmay hok, fun hone =>
    ⟨fun ha hsome => ?_, fun d ha hy hholds hd => exec_ctxRun hup hone ha hy hholds hd,
      fun d ha hy hd => exec_ctxDrain hup hone ha hy hd, fun d ha hy hholds hd => exec_resume hup hone ha hy hholds hd,
      fun ha hy hmay => exec_streamAttach hup hone ha hy hmay⟩,
    fun ha hlen hy hholds hstep => exec_checkpoint hup ha hlen hy hholds hstep,
    fun ha hlen hy hholds hst hok => ?_⟩
  · obtain ⟨z, hz⟩ := Option.isSome_iff_exists.mp hsome
    exact exec_ctxDestroy hup hone ha hz
  · exact ⟨fun hnone => exec_programLoad hup ha hlen hy hholds hst hok (imageRead_ok hnone),
      fun e he => exec_programLoad hup ha hlen hy hholds hst hok (imageRead_bad he)⟩

end Sys2Proof.Machine
end

section
/-!
The module right after reset (R136, R442, R450, R475, R481, R491).
-/
namespace Sys2Proof.Machine

/-- No context is resident, so none can run, and no PLL has started. -/
theorem rested_reset : Rested State.reset.blk := fun _ _ => ⟨rfl, rfl⟩

/-- No image is listed, so each is the one of a unit that nothing has written. -/
theorem img_reset (c : Nat) (u : UnitId) : img State.reset.blk c u = {} := rfl

@[simp] theorem sreg_empty (r : BitVec 5) : sreg {} r = 0 := by
  simp [sreg]

@[simp] theorem freg_empty (r : BitVec 5) : freg {} r = 0 := by
  simp [freg]

/-- Settles O53: each field is the default that reset leaves, and with nothing listed every read gives 0. -/
theorem resetState : Obligations.ResetState := by
  refine ⟨rfl, rested_reset, rfl, rfl, rfl, rfl, rfl, rfl, rfl, rfl, rfl, rfl, rfl, rfl, rfl, rfl, rfl, rfl, rfl, rfl,
    rfl, Memory.wf_reset, fun c u r => ?_, fun k => rfl⟩
  rw [img_reset]
  exact ⟨sreg_empty r, freg_empty r, rfl⟩

end Sys2Proof.Machine
end

section
/-!
FENCE, COLL and LGF (R198, R199, R203).
-/
namespace Sys2Proof.Machine

/-! ### FENCE -/

/-- With no operation of its scope open, FENCE reports the refusals of its scope and keeps the others. -/
theorem fenceTest_closed {b : Block} {c : Nat} {u : UnitId} {i : UnitImg} {o : Ops}
    (hclosed : scopeOpen b c u (fenceScope i o) = false) (w : U64) : fenceTest b c u i o w =
      retire b c u (setS { i with refus := i.refus.filter fun e => !fenceScope i o (BitVec.ofNat 15 e.1) } (fd o)
        (BitVec.ofNat 64 (((i.refus.filter fun e => fenceScope i o (BitVec.ofNat 15 e.1)).map Prod.snd).foldl
          (· + ·) 0))) := by
  simp only [fenceTest, hclosed, Bool.false_eq_true, if_false]

/-- A legal FENCE of a program's own tests its scope. -/
theorem exec_fence {s : State} {u : UnitId} {c : Nat} (h : Executes s u c) {o : Ops} (hl : legalFence o = true) :
    exec (.fence u o) s =
      .next (became s (fenceTest s.blk c u (img s.blk c u) o (mkWord 20 0x05 o))) := by
  refine (actUp_next (orBuiltin .fence u (fenceEff u o)) s h.1).trans ?_
  rw [orBuiltin_of_executes h, fenceEff, hl, issue_effect s u c h]

/-! ### COLL -/

section
variable {s : State} {t : Fin 1152} {c : Nat} (h : Executes s (.tile t) c) {o : Ops} (hl : legalColl o = true)
  (hmapped : badByte s.blk c (collBlock s.blk (img s.blk c (.tile t)) o).1 64 = none)
  (hroom : (img s.blk c (engineOf (.tile t))).colls.length < 64) {b1 : Block}
include h hl hmapped hroom

/-- A request block that reads back is queued at the region's engine under the engine's next number. -/
theorem exec_coll_queued
    (hread : meetRead s.blk c (.tile t) (collBlock s.blk (img s.blk c (.tile t)) o).1 64 = .ok b1) :
    let i := img s.blk c (.tile t)
    let g := engineOf (.tile t)
    let e := img s.blk c g
    let a := collBlock s.blk i o
    exec (.coll (.tile t) o) s = .next (became s (retire
      (setImg b1 c g { e with
        colls := e.colls ++ [readCollReq e.collSeq (readBytes b1 c i a.1 64)], collSeq := e.collSeq + 1 })
      c (.tile t) (countEv (setS i (fd o) (BitVec.ofNat 64 e.collSeq)) (evClamps a.2)))) := by
  refine (actUp_next (collEff (.tile t) o) s h.1).trans ?_
  simp only [collEff, isTile, hl, Bool.and_self, issue_effect s _ c h, hmapped, ge_iff_le, if_neg (Nat.not_le.mpr hroom),
    hread]

/-- A request block that the memory code cannot correct leaves COLL at issue. -/
theorem exec_coll_refused
    (hread : meetRead s.blk c (.tile t) (collBlock s.blk (img s.blk c (.tile t)) o).1 64 = .refused b1) :
    exec (.coll (.tile t) o) s =
      .next (became s (park b1 c (.tile t) (img s.blk c (.tile t)) .room (mkWord 20 0x08 o))) := by
  refine (actUp_next (collEff (.tile t) o) s h.1).trans ?_
  simp only [collEff, isTile, hl, Bool.and_self, issue_effect s _ c h, hmapped, ge_iff_le, if_neg (Nat.not_le.mpr hroom),
    hread]

end

/-! ### LGF -/

theorem exec_lgf {s : State} {t : Fin 1152} {c : Nat} (h : Executes s (.tile t) c) {o : Ops} (hl : legalLgf o = true) :
    let i := img s.blk c (.tile t)
    let n := bits o 0 4
    let x := if bit o 4 then freg i (fa o) else sreg i (fa o)
    let k := ctxOf s.blk c
    exec (.lgf (.tile t) o) s = .next (became s (retire
      (setCtx s.blk c { k with lgf := tins k.lgf n (lgfCombine n t.val (tlook k.lgf n) x) }) c (.tile t) i)) := by
  refine (actUp_next (lgfEff (.tile t) o) s h.1).trans ?_
  simp only [lgfEff, isTile, hl, Bool.and_self, issue_effect s _ c h, tileNo]

/-- Settles O22: FENCE by its test, COLL by what its request block reads, LGF by its one effect. -/
theorem fenceCollectiveAndRecordFields : Obligations.FenceCollectiveAndRecordFields := by
  intro s c o
  refine ⟨fun u h hl hclosed => ?_, fun t h => ⟨fun hl hmapped hroom => ⟨fun b1 hread => ?_,
    fun b1 hread => ?_⟩, fun hl => exec_lgf h hl⟩⟩
  · rw [exec_fence h hl, fenceTest_closed hclosed]
    rfl
  · exact exec_coll_queued h hl hmapped hroom hread
  · exact exec_coll_refused h hl hmapped hroom hread

end Sys2Proof.Machine
end

section
/-!
A step closing, the pair check and the step limit (R204, R400, R413, R414, R426).
-/
namespace Sys2Proof.Machine

/-- In Idle or above a command leaves what its effect comes to. -/
theorem actUp_eq {s : State} (hup : Up s) {f : Block → Block} {d : Block} (hd : f s.blk = d) :
    actUp f s = .next (became s d) := by
  rw [actUp_next f s hup, hd]

/-- STEPEND waits for the step to close. -/
theorem exec_stepend {s : State} {t : Fin 1152} {c : Nat} (h : Executes s (.tile t) c) {o : Ops}
    (hl : legalStepend o = true) : exec (.stepend (.tile t) o) s =
      .next (became s (park s.blk c (.tile t) (img s.blk c (.tile t)) .stepEnd (mkWord 0x1C 0x01 o))) := by
  refine (actUp_next (stependEff (.tile t) o) s h.1).trans ?_
  simp only [stependEff, isTile, hl, Bool.and_self, issue_effect s _ c h]

section
variable {b : Block} {c : Nat} (hrun : b.running = some c)
include hrun

theorem stepClose_ready (hphase : (ctxOf b c).phase = .none) (hready : stepReady b c = true) :
    stepClose b = closeStep b c := by
  simp only [stepClose, hrun, hphase, hready, and_self, if_true]

theorem ringWaitEnd_waiting (hphase : (ctxOf b c).phase = .ringWait) : ringWaitEnd b = closeStep b c := by
  simp only [ringWaitEnd, hrun, hphase, if_true]

theorem stepLimit_pairWait (hphase : (ctxOf b c).phase = .pairWait) :
    stepLimit b = sendEvent (pairFail b c) { kind := 4, ctx := c, body := [(ctxOf b c).step.setWidth 64] } := by
  simp only [stepLimit, hrun, hphase, if_true]

theorem stepLimit_other (hphase : (ctxOf b c).phase ≠ .pairWait) :
    let x := ctxOf b c
    stepLimit b = sendEvent (haltCtx (setCtx b c
        { x with phase := if x.phase = .pairFailed then .pairFailed else .none }) c .haltedFault)
      { kind := 4, ctx := c, body := [x.step.setWidth 64] } := by
  simp only [stepLimit, hrun, if_neg hphase]

end

/-! ### The pair check (R414) -/

/-- What a pair check meets as it reads the partner's message: the block, the word that stops it, and the bytes. -/
def pairMet (b : Block) (c : Nat) : (Block × Option Nat) × List Byte :=
  readOwn b (lcBase (ctxOf b c) + 0x40 + 64 * ((ctxOf b c).pairQ % 2)) 56

/-- The refusals that the own message met, and the partner's message, show no difference. -/
def PairAgrees (b : Block) (c : Nat) : Prop :=
  tget (img (pairMet b c).1.1 c (pairTile b c)).refus 0 (lcPartner b (ctxOf b c)) = 0 ∧
    (pairMet b c).2 = (pairMessage (ctxOf b c)).take 56

/-- The block once the check has taken the refusals of its own message. -/
def pairFenced (b : Block) (c : Nat) : Block :=
  let d := (pairMet b c).1.1
  let i := img d c (pairTile b c)
  setImg d c (pairTile b c) { i with refus := tput i.refus 0 (lcPartner b (ctxOf b c)) 0 }

section
variable {b : Block} {c : Nat} (hrun : b.running = some c) (hphase : (ctxOf b c).phase = .pairWait)
  (hcome : (ctxOf b c).pairQ ≤ lcPairCnt b (ctxOf b c))
  (hclosed : scopeOpen b c (pairTile b c) (fun n => n.toNat == lcPartner b (ctxOf b c)) = false)
include hrun hphase hcome hclosed

theorem pairCheck_uncorrected {e : Nat} (hbad : (pairMet b c).1.2 = some e) :
    pairCheck b = memFault (pairMet b c).1.1 e := by
  unfold pairMet at hbad ⊢
  simp only [pairCheck, hrun, hphase, hcome, hclosed, hbad, and_self, if_true, Option.isSome_some]

theorem pairCheck_differs (hread : (pairMet b c).1.2 = none) (hdiff : ¬ PairAgrees b c) :
    pairCheck b = pairFail (pairFenced b c) c := by
  unfold PairAgrees pairMet at hdiff
  unfold pairMet at hread
  simp only [pairCheck, hrun, hphase, hcome, hclosed, hread, and_self, if_true, Option.isSome_none, Bool.false_eq_true,
    if_false, if_neg hdiff]
  rfl

theorem pairCheck_agrees (hread : (pairMet b c).1.2 = none) (hsame : PairAgrees b c) :
    let x := ctxOf b c
    pairCheck b = afterStep (finishStep (pairFenced b c) c) c x.step.toNat x.record x.replay true := by
  unfold PairAgrees pairMet at hsame
  unfold pairMet at hread
  simp only [pairCheck, hrun, hphase, hcome, hclosed, hread, and_self, if_true, Option.isSome_none, Bool.false_eq_true,
    if_false, if_pos hsame]
  rfl

end

/-- Settles O23: each row of closing acts by the phase that the step of the running context is in. -/
theorem stepsClose : Obligations.StepsClose :=
  ⟨fun _ _ => ⟨fun _ _ h hl => exec_stepend h hl, fun hup hrun =>
      ⟨fun hphase hready => actUp_eq hup (stepClose_ready hrun hphase hready),
        fun hphase => actUp_eq hup (ringWaitEnd_waiting hrun hphase), fun hphase hcome hclosed =>
        ⟨fun _ hbad => actUp_eq hup (pairCheck_uncorrected hrun hphase hcome hclosed hbad),
          fun hread hdiff => actUp_eq hup (pairCheck_differs hrun hphase hcome hclosed hread hdiff),
          fun hread hsame => actUp_eq hup (pairCheck_agrees hrun hphase hcome hclosed hread hsame)⟩⟩⟩,
    fun _ _ hup hrun => ⟨fun hphase => actUp_eq hup (stepLimit_other hrun hphase),
      fun hphase => actUp_eq hup (stepLimit_pairWait hrun hphase)⟩⟩

end Sys2Proof.Machine
end

section
/-!
Collectives: what each row of a fabric engine's built-in program does with the request at its front (R199, R335 to R342).
-/
namespace Sys2Proof.Machine

/-- A row of an engine's program acts, and what a unit waited for goes on. -/
theorem actUp_settled {s : State} (hup : Up s) {f : Block → Block} {d : Block} (hd : f s.blk = d) :
    actUp (fun b => settleAll (f b)) s = .next (became s (settleAll d)) :=
  actUp_eq hup (congrArg settleAll hd)

section
variable {b : Block} {k c : Nat} {i : UnitImg} {q : CollReq}

theorem allGather_front (hfront : frontColl b k (· == 1) = some (c, i, q)) :
    allGather k b = if q.stage < 2 then gatherSend b c k q true else gatherWait b c k q true := by
  simp only [allGather, hfront]

theorem broadcast_front (hfront : frontColl b k (· == 3) = some (c, i, q)) :
    broadcast k b = if q.stage < 2 then gatherSend b c k q false else gatherWait b c k q false := by
  simp only [broadcast, hfront]

/-- A REDUCE_SCATTER that has begun goes on from its stage. -/
theorem reduceScatter_begun (hfront : frontColl b k (· == 2) = some (c, i, q)) (hstage : q.stage ≠ 0) :
    reduceScatter k b = rsStep c k (3 * axisExtent b (argNat q 3 % 4) + 4) b q := by
  simp only [reduceScatter, hfront, if_neg hstage]

/-- A REDUCE_SCATTER of defined words whose source is mapped begins with no refusals noted. -/
theorem reduceScatter_begins (hfront : frontColl b k (· == 2) = some (c, i, q)) (hstage : q.stage = 0)
    (hop : argNat q 3 / 4 % 4 = 0) (hrest : argNat q 3 / 2 ^ 16 = 0) (hfmt : rsFmt q ≤ 6)
    (hmapped : badByte b c (argLocal b q 0)
      ((axisExtent b (argNat q 3 % 4) * argNat q 2 * raddSrcBits 5 (rsFmt q) + 7) / 8) = none) :
    reduceScatter k b = rsStep c k (3 * axisExtent b (argNat q 3 % 4) + 4)
      (setImg b c (engUnit k) { i with refus := [] }) { q with stage := 1 } := by
  have hdefined : ¬ (argNat q 3 / 4 % 4 ≠ 0 ∨ argNat q 3 / 2 ^ 16 ≠ 0 ∨ rsFmt q > 6) := by omega
  simp only [reduceScatter, hfront, if_pos hstage, if_neg hdefined, hmapped]

/-- A PERMUTE that has begun goes on with the moves it has still to make. -/
theorem permute_begun (hfront : frontColl b k (· == 4) = some (c, i, q)) (hstage : q.stage ≠ 0) :
    permute k b = permStep c k (6 * q.todo.length * (permS q / 65536 + 2) + 8) b q := by
  simp only [permute, hfront, ne_eq, hstage, not_false_eq_true, if_true]

theorem collUndefinedKind_front (hfront : frontColl b k (fun n => decide (n > 4)) = some (c, i, q)) :
    collUndefinedKind k b = endColl (engClamp b c k 1) c k q := by
  simp only [collUndefinedKind, hfront]

theorem collWaitTimeout_begun (hfront : frontColl b k (fun n => decide (1 ≤ n) && decide (n ≤ 4)) = some (c, i, q))
    (hstage : q.stage ≠ 0) : collWaitTimeout k b = endColl b c k { q with failed := true } := by
  simp only [collWaitTimeout, hfront, if_neg hstage, failColl]

/-! ### Engine programs (R336) -/

/-- A program that has returned gives the engine back to its built-in one, and s1 tells whether the request failed. -/
theorem collEngineProgram_returned (hfront : frontColl b k (· == 0) = some (c, i, q)) (hstage : q.stage ≠ 0)
    (hrun : i.run = .running) (hret : i.ret = some i.pc) : collEngineProgram k b =
      endColl (setImg b c (engUnit k) { i with run := .running, builtin := true, ret := none }) c k
        { q with failed := sreg i 1 != 0 } := by
  simp only [collEngineProgram, hfront, if_neg hstage, hrun, hret, and_self, if_true]

/-- The registers that a request's program is called with: its arguments, its copy of the request block, and where it
returns to. -/
def callRegs (q : CollReq) (copy back : U64) : List (Nat × U64) :=
  [(1, q.args.getD 1 0), (2, q.args.getD 2 0), (3, q.args.getD 3 0), (4, q.args.getD 4 0), (5, q.args.getD 5 0),
    (6, copy), (31, back)]

/-- The engine's image as the program of request `q` is called at `pc`. -/
def callImg (i : UnitImg) (q : CollReq) (copy back pc : U64) : UnitImg :=
  { (callRegs q copy back).foldl (fun z t => setS z (BitVec.ofNat 5 t.1) t.2) i with
    pc := pc, run := .running, builtin := false, ret := some back, colls := { q with stage := 1 } :: i.colls.drop 1 }

section
variable (i : UnitImg) (q : CollReq) (copy back pc : U64)

/-- A register reads the last of the call's writes to it. -/
theorem sreg_callImg (r : BitVec 5) : sreg (callImg i q copy back pc) r =
    sreg ((callRegs q copy back).foldl (fun z t => setS z (BitVec.ofNat 5 t.1) t.2) i) r := rfl

theorem sreg_callImg_back : sreg (callImg i q copy back pc) 31 = back := by
  simp [sreg_callImg, callRegs, sreg_setS]

theorem sreg_callImg_copy : sreg (callImg i q copy back pc) 6 = copy := by
  simp [sreg_callImg, callRegs, sreg_setS]

theorem sreg_callImg_arg (r : Fin 5) :
    sreg (callImg i q copy back pc) (BitVec.ofNat 5 (r.val + 1)) = q.args.getD (r.val + 1) 0 := by
  fin_cases r <;> simp [sreg_callImg, callRegs, sreg_setS]

end

/-- A program that lies in its image at a multiple of 8 is called, the request block copied for it. -/
theorem collEngineProgram_calls (hfront : frontColl b k (· == 0) = some (c, i, q)) (hstage : q.stage = 0)
    (haligned : argNat q 0 % 8 = 0) (hinside : argNat q 0 < (ctxOf b c).imgSize) : collEngineProgram k b =
      setImg (writeMem (freshWord b).2 (callCopy k) (callCopy k) q.block).1 c (engUnit k)
        (callImg i q (ownAddr b (callCopy k)) (freshWord b).1
          (BitVec.ofNat 64 ((ctxOf b c).image.toNat + argNat q 0))) := by
  have hentry : ¬ (argNat q 0 % 8 ≠ 0 ∨ (ctxOf b c).imgSize ≤ argNat q 0) := by omega
  simp only [collEngineProgram, hfront, if_pos hstage, if_neg hentry]
  rfl

end

/-- Settles O27: each row by the front request of its kind, and how far that request has come. -/
theorem collectivesAdvance : Obligations.CollectivesAdvance := by
  intro s k c i q hup b did
  refine ⟨fun hfront => actUp_settled hup (allGather_front hfront),
    fun hfront => actUp_settled hup (broadcast_front hfront),
    fun hfront hstage => actUp_settled hup (reduceScatter_begun hfront hstage),
    fun hfront hstage hop hrest hfmt hmapped =>
      actUp_settled hup (reduceScatter_begins hfront hstage hop hrest hfmt hmapped),
    fun hfront hstage => actUp_settled hup (permute_begun hfront hstage),
    fun hfront hstage hrun hret => actUp_settled hup (collEngineProgram_returned hfront hstage hrun hret),
    fun hfront hstage haligned hinside =>
      ⟨_, actUp_settled hup (collEngineProgram_calls hfront hstage haligned hinside), ?_⟩,
    fun hfront => actUp_settled hup (collUndefinedKind_front hfront),
    fun hfront hstage => actUp_settled hup (collWaitTimeout_begun hfront hstage)⟩
  rw [img_setImg_self]
  exact ⟨rfl, rfl, rfl, congrArg some (sreg_callImg_back ..).symm, sreg_callImg_copy .., sreg_callImg_arg _ _ _ _ _⟩

end Sys2Proof.Machine
end

section
/-!
A Derrick's rounds: the solver operations, the timeout of a waiting DNEXT and the copying of a submission (R200, R227, R229,
R245 to R261).
-/
namespace Sys2Proof.Machine

/-! ### Solver operations -/

theorem drkUnit_val (r : Fin 12) : drkUnit r.val = .derrick r :=
  congrArg UnitId.derrick (Fin.ofNat_val_eq_self r)

/-- A legal solver operation of an owner's program has its effect wherever that program holds it. -/
theorem solverOp_of_executes {s : State} {r : Fin 12} {c : Nat} (h : Executes s (.derrick r) c) (op : Nat) (o : Ops)
    {legal : Bool} (hl : legal = true) (eff : Nat → UnitImg → Block) :
    solverOp s.blk (.derrick r) op o legal eff = eff c (img s.blk c (.derrick r)) := by
  simp only [solverOp, issueOr, builtCtx_of_executes h, accepts, hl, Bool.and_self, issue_effect s _ c h]

/-- An owner's program gets a result in its register. -/
theorem drkOut_own {i : UnitImg} (hown : i.builtin = false) (o : Ops) (x : U64) : drkOut i o x = setS i (fd o) x := by
  simp only [drkOut, hown, Bool.false_eq_true, if_false]

/-- A work store that holds no error stands in the way of nothing. -/
theorem onStore_clean {b : Block} {k : Nat} (hclean : (drkOf b k).storeErrs = []) (eff : Block → Block) :
    onStore b k eff = eff b := by
  simp only [onStore, storeMeet, hclean, List.isEmpty_nil, if_true]

/-- Starting a round counts clamps in the Derrick's image, and leaves which program it runs. -/
theorem builtin_startRound (b : Block) (c : Nat) (r : Fin 12) (x : RoundRec × Nat × List Batch) :
    (img (startRound b c r.val x) c (.derrick r)).builtin = (img b c (.derrick r)).builtin := by
  simp only [startRound, drkClamp, drkUnit_val, img_setImg_self]
  rfl

section
variable {s : State} {r : Fin 12} {c : Nat} (h : Executes s (.derrick r) c) {o : Ops}
include h

/-! ### DNEXT -/

/-- DNEXT starts a round that is ready. -/
theorem exec_dnext_ready (hl : legalDnext o = true) {x : RoundRec × Nat × List Batch}
    (hready : readyRound s.blk c r.val = some x) :
    let b1 := startRound s.blk c r.val x
    exec (.dnext (.derrick r) o) s = .next (became s (retire b1 c (.derrick r)
      (addClamps (dnextLimit (img s.blk c (.derrick r)) o) (setS (img b1 c (.derrick r)) (fd o) 0)))) := by
  have hown := builtin_of_executes h
  intro b1
  rw [← countEv_clamps, ← drkOut_own ((builtin_startRound s.blk c r x).trans hown)]
  refine (actUp_next (dnextEff (.derrick r) o) s h.1).trans ?_
  simp only [dnextEff, solverOp_of_executes h _ o hl, regionOf, hready, hown, Bool.false_eq_true, if_false, b1]

/-- With none ready and no time to wait it writes 1. -/
theorem exec_dnext_none (hl : legalDnext o = true) (hready : readyRound s.blk c r.val = none)
    (hlimit : sreg (img s.blk c (.derrick r)) (fc o) = 0) : exec (.dnext (.derrick r) o) s =
      .next (ran s c (.derrick r) (setS (img s.blk c (.derrick r)) (fd o) 1)) := by
  refine (actUp_next (dnextEff (.derrick r) o) s h.1).trans ?_
  simp only [dnextEff, solverOp_of_executes h _ o hl, regionOf, hready, builtin_of_executes h, hlimit, Bool.not_false,
    beq_self_eq_true, Bool.and_self, if_true, ran]

/-- With none ready and time to wait it waits. -/
theorem exec_dnext_waits (hl : legalDnext o = true) (hready : readyRound s.blk c r.val = none)
    (hlimit : sreg (img s.blk c (.derrick r)) (fc o) ≠ 0) : exec (.dnext (.derrick r) o) s =
      .next (became s (park s.blk c (.derrick r) (img s.blk c (.derrick r)) .round (mkWord 0x18 0x10 o))) := by
  refine (actUp_next (dnextEff (.derrick r) o) s h.1).trans ?_
  simp only [dnextEff, solverOp_of_executes h _ o hl, regionOf, hready, beq_false_of_ne hlimit, Bool.and_false,
    Bool.false_eq_true, if_false]

/-! ### DSTAT -/

theorem exec_dstat (hl : legalDstat o = true) (elapsed : Nat) : exec (.dstat (.derrick r) o elapsed) s =
    .next (ran s c (.derrick r) (setS (img s.blk c (.derrick r)) (fd o)
      (BitVec.ofNat 64 (dstatWord s.blk c r.val elapsed)))) := by
  have hown := builtin_of_executes h
  refine (actUp_next (dstatEff (.derrick r) o elapsed) s h.1).trans ?_
  simp only [dstatEff, solverOp_of_executes h _ o hl, regionOf, drkOut_own hown, hown, Bool.false_eq_true, if_false, ran]

/-! ### DAPPLY, DPREP and DITER -/

section
variable (hl : legalNone o = true) {q : DrkRound} (hcur : curRound s.blk c r.val = some q)
  (hclean : (drkOf s.blk r.val).storeErrs = [])
include hl hcur hclean

/-- DAPPLY applies the records of batches that memory can give, in the order of R201. -/
theorem exec_dapply (hnew : q.applied = false) {b1 : Block} {recs : List DRec}
    (hread : readBatches r.val s.blk (sortBatches q.batches) = (b1, some recs)) :
    let a := recs.foldl (applyRec c r.val) { d := drkOf b1 r.val, b := b1 }
    let b2 := setRound (setDrk a.b r.val a.d) c r.val fun x => { x with cur := some { q with applied := true } }
    a.fault = false → exec (.dapply (.derrick r) o) s = .next (became s (retire b2 c (.derrick r)
      (drkCount (img b2 c (.derrick r)) (a.clamps + applySpecs q.round q.batches) a.sats 0 0))) := by
  intro a b2 hgood
  refine (actUp_next (dapplyEff (.derrick r) o) s h.1).trans ?_
  simp only [dapplyEff, solverOp_of_executes h _ o hl, regionOf, hcur, hnew, onStore_clean hclean, hread, hgood,
    Bool.false_eq_true, if_false, a, b2]

/-- DPREP sets up a solve of each resident environment whose block memory can give. -/
theorem exec_dprep (hdone : q.applied = true) (hnew : q.prepped = false) :
    let l := solveList (drkOf s.blk r.val) c q.spec
    let t := if q.spec.mode = 3 then adjointEntry (tget (drkOf s.blk r.val).ctx {} c) q.spec else none
    ∀ b1, readRanges s.blk (prepRanges l.1 t) = (b1, true) →
    let b2 := setRound b1 c r.val fun x => { x with cur := some { q with
      prepped := true
      work := l.1.map fun y =>
        if q.spec.mode = 3 then adjointEnv t y.2.2 y.2.1 y.1 else prepEnv y.2.2 y.2.1 y.1 q.spec } }
    exec (.dprep (.derrick r) o) s = .next (became s (retire b2 c (.derrick r)
      (drkCount (img b2 c (.derrick r)) l.2 0 0 0))) := by
  intro l t b1 hread b2
  refine (actUp_next (dprepEff (.derrick r) o) s h.1).trans ?_
  simp only [dprepEff, solverOp_of_executes h _ o hl, regionOf, hcur, hdone, hnew, onStore_clean hclean, hread,
    Bool.not_true, Bool.or_self, Bool.false_eq_true, if_false, if_true, l, t, b2]

/-- DITER iterates every solve of a round that has its solves. -/
theorem exec_diter (hdone : q.prepped = true) : exec (.diter (.derrick r) o) s = .next (became s (retire
    (setRound s.blk c r.val fun x => { x with cur := some { q with
      j := q.j + 1, stat := none, work := q.work.map (if q.spec.mode = 3 then backIterate else iterate) } })
    c (.derrick r) (img s.blk c (.derrick r)))) := by
  refine (actUp_next (diterEff (.derrick r) o) s h.1).trans ?_
  simp only [diterEff, solverOp_of_executes h _ o hl, regionOf, hcur, hdone, onStore_clean hclean, Bool.not_true,
    Bool.false_eq_true, if_false]

end

end

/-! ### The word of DSTAT (R251) -/

section
variable {b : Block} {c k : Nat}

theorem dstatWord_none (hcur : curRound b c k = none) (elapsed : Nat) : dstatWord b c k elapsed = 0 := by
  simp only [dstatWord, hcur]

theorem deadlinePassed_iff (q : DrkRound) (elapsed : Nat) :
    deadlinePassed q elapsed = true ↔ q.spec.deadline ≠ 0 ∧ q.spec.deadline < elapsed := by
  simp only [deadlinePassed, Bool.and_eq_true, bne_iff_ne, decide_eq_true_eq]

variable {q : DrkRound} (hcur : curRound b c k = some q) (elapsed : Nat)
include hcur

/-- Its low nine bits are the iteration limit, and the next one the deadline. -/
theorem dstatWord_mod : dstatWord b c k elapsed % 2 ^ 10 =
    iterLimit b c k q % 2 ^ 9 + 2 ^ 9 * (deadlinePassed q elapsed).toNat := by
  have hbit : (deadlinePassed q elapsed).toNat < 2 := Bool.toNat_lt _
  simp only [dstatWord, hcur]
  omega

theorem dstatWord_limit :
    (BitVec.ofNat 64 (dstatWord b c k elapsed)).toNat % 2 ^ 9 = iterLimit b c k q % 2 ^ 9 := by
  have hlow := dstatWord_mod hcur elapsed
  rw [BitVec.toNat_ofNat]
  omega

theorem dstatWord_deadline : (BitVec.ofNat 64 (dstatWord b c k elapsed)).getLsbD 9 = true ↔
    q.spec.deadline ≠ 0 ∧ q.spec.deadline < elapsed := by
  have hlow := dstatWord_mod hcur elapsed
  have hbit : dstatWord b c k elapsed / 2 ^ 9 % 2 = (deadlinePassed q elapsed).toNat := by omega
  rw [← deadlinePassed_iff, BitVec.getLsbD_ofNat, Nat.testBit_eq_decide_div_mod_eq, hbit]
  cases deadlinePassed q elapsed <;> decide

end

/-! ### The timeout of a waiting DNEXT -/

/-- An owner's program gets 1; the built-in one, whose registers show nothing, asks again (log 99). -/
theorem exec_dnextTimeout {s : State} (hup : Up s) {u : UnitId} {c : Nat} {w : U64}
    (hwait : waitCtx s.blk u = some (c, .round, w)) :
    let o : Ops := w.setWidth 52
    let i := img s.blk c u
    exec (.dnextTimeout u) s = .next (became s (retire s.blk c u
      (if i.builtin then countEv i (evClamps 0) else addClamps (dnextLimit i o) (setS i (fd o) 1)))) := by
  intro o i
  rw [← countEv_clamps]
  refine (actUp_next (dnextTimeoutEff u) s hup).trans ?_
  simp only [dnextTimeoutEff, hwait, drkOut, i, o]
  cases (img s.blk c u).builtin <;> rfl

/-! ### DFIN -/

/-- A round that its deadline does not cut is late once the deadline has passed. -/
def roundLate (b : Block) (c : Nat) (q : DrkRound) (elapsed : Nat) : Bool :=
  !cutMode q.spec && !(ctxOf b c).replay && deadlinePassed q elapsed

/-- Every solve of a round finished at `j` iterations, and whether memory took all that this writes. -/
def roundSolved (b : Block) (c k : Nat) (q : DrkRound) (j elapsed : Nat) : Block × Bool :=
  let t := tapeSide b c k q j
  let x : SolveOut := { late := roundLate b c q elapsed, noTape := t.noTape, adjoint := q.spec.mode == 3, reached := j,
                        requested := q.spec.iters, round := q.round }
  q.work.foldl (finishSolve c k (ctxOf b c).step.toNat x t.used) (t.b, t.good)

/-- The round is current no more, and the context and the Derrick have counted it. -/
def roundCounted (b : Block) (c k : Nat) (q : DrkRound) (j elapsed : Nat) : Block :=
  let b1 := setRound (roundSolved b c k q j elapsed).1 c k fun y =>
    { y with cur := none, next := q.round + 1, cut := newCut b c k q j, rounds := y.rounds + 1,
             late := y.late + (roundLate b c q elapsed).toNat }
  let d := drkOf b1 k
  setDrk b1 k { d with roundsRun := satAdd d.roundsRun 1, solves := satAdd d.solves q.work.length }

/-- The round's completion counter is signalled, where it names one. -/
def roundSignalled (b : Block) (c : Nat) (u : UnitId) (q : DrkRound) : Block :=
  if q.spec.counter = 0 then b else startOp b c u .plain [(q.spec.counter, .signal q.spec.inc, 0)]

/-- An owner's program gives the iterations reached, held at 256. -/
theorem finCount_own {i : UnitImg} (hown : i.builtin = false) (q : DrkRound) (o : Ops) : finCount q i o =
    (min (sreg i (fa o)).toNat 256, if 256 < (sreg i (fa o)).toNat then 1 else 0) := by
  simp only [finCount, hown, Bool.false_eq_true, if_false]
  split
  next hle => rw [Nat.min_eq_left hle, if_neg (Nat.not_lt.mpr hle)]
  next hgt => rw [Nat.min_eq_right (by omega), if_pos (by omega)]

/-- With room in its port and all its writes taken, DFIN ends the round: solves, counts, completion counter. -/
theorem exec_dfin {s : State} {r : Fin 12} {c : Nat} (h : Executes s (.derrick r) c) {o : Ops} {elapsed : Nat}
    (hl : legalDfin o = true) {q : DrkRound} (hcur : curRound s.blk c r.val = some q)
    (hport : portFull (img s.blk c (.derrick r)) = false) (hclean : (drkOf s.blk r.val).storeErrs = []) :
    let x := (sreg (img s.blk c (.derrick r)) (fa o)).toNat
    let j := min x 256
    (roundSolved s.blk c r.val q j elapsed).2 = true →
    let b3 := roundSignalled (roundCounted s.blk c r.val q j elapsed) c (.derrick r) q
    exec (.dfin (.derrick r) o elapsed) s = .next (became s (retire b3 c (.derrick r)
      (addClamps (if 256 < x then 1 else 0) (img b3 c (.derrick r))))) := by
  intro x j hgood b3
  rw [← countEv_clamps]
  unfold roundSolved roundLate at hgood
  refine (actUp_next (dfinEff (.derrick r) o elapsed) s h.1).trans ?_
  simp only [dfinEff, solverOp_of_executes h _ o hl, regionOf, hcur, hport, onStore_clean hclean,
    finCount_own (builtin_of_executes h), Bool.false_eq_true, if_false]
  rw [if_pos hgood]
  rfl

/-! ### Copying a submission -/

theorem exec_batchEnqueue {s : State} (hup : Up s) (r : Fin 12) :
    exec (.batchEnqueue r) s = .next (became s (settleAll (batchEnqueue r.val s.blk))) :=
  actUp_next (fun b => settleAll (batchEnqueue r.val b)) s hup

/-- The oldest submission has left the Derrick's list, whose others are `rest`. -/
def subTaken (k : Nat) (rest : List DrkSub) (b : Block) : Block := setDrk b k { drkOf b k with subs := rest }

/-- A batch stands in the queue, and its bytes in its place of the queue area, where memory takes them. The pair is kept
whole: to compare its first part alone would be to compute the place's address. -/
def batchKept (b : Block) (k : Nat) (y : Batch) (x : List Byte) : Block × Bool :=
  let d := drkOf b k
  writeMem (setDrk b k { d with queue := d.queue ++ [y] }) (queueBase k y.place) (queueBase k y.place) x

/-- What a Derrick does with a batch it has read: nothing with an empty one, a clamp for one that comes too late. -/
def batchMet (b : Block) (k : Nat) (y : Batch) (x : List Byte) : Block :=
  if y.len = 0 then b else if batchGone b k y then drkClamp b y.ctx k 1 else (batchKept b k y x).1

theorem batchGone_iff (b : Block) (k : Nat) (y : Batch) : batchGone b k y = true ↔
    let dc := tget (drkOf b k).ctx {} y.ctx
    y.step = (ctxOf b y.ctx).step.toNat ∧ (y.round < dc.next ∨ dc.cur.isSome = true ∧ y.round = dc.next) := by
  simp only [batchGone, Bool.and_eq_true, Bool.or_eq_true, beq_iff_eq, decide_eq_true_eq]

section
variable {b : Block} {k : Nat} {y : Batch} (x : List Byte)

theorem batchMet_empty (hlen : y.len = 0) : batchMet b k y x = b := if_pos hlen

theorem batchMet_gone (hlen : y.len ≠ 0) (hgone : batchGone b k y = true) : batchMet b k y x =
    drkClamp b y.ctx k 1 := by
  rw [batchMet, if_neg hlen, if_pos hgone]

theorem batchMet_kept (hlen : y.len ≠ 0) (hnew : ¬ batchGone b k y = true) : batchMet b k y x =
    (batchKept b k y x).1 := by
  rw [batchMet, if_neg hlen, if_neg hnew]

end

section
variable {b : Block} {k : Nat} {q : DrkSub} {rest : List DrkSub} {p : Nat} (hsubs : (drkOf b k).subs = q :: rest)
  (hplace : freePlace (drkOf b k) = some p) {b1 : Block}
include hsubs hplace

/-- A submission that the memory code cannot correct is copied nowhere. -/
theorem batchEnqueue_refused (hread : meetRead b q.ctx (.tile (Fin.ofNat 1152 q.tile)) q.addr q.len = .refused b1) :
    batchEnqueue k b = subTaken k rest b1 := by
  simp only [batchEnqueue, hsubs, hplace, hread, subTaken]

/-- One that reads back is met as the batch it holds, and then its counter takes 1. -/
theorem batchEnqueue_read (hread : meetRead b q.ctx (.tile (Fin.ofNat 1152 q.tile)) q.addr q.len = .ok b1) :
    let x := readBytes b1 q.ctx (img b1 q.ctx (.tile (Fin.ofNat 1152 q.tile))) q.addr q.len
    let d := batchMet (subTaken k rest b1) k (batchOf q p x) x
    batchEnqueue k b = if q.counter = 0 then d else addCounter d q.ctx q.counter 1 := by
  simp only [batchEnqueue, hsubs, hplace, hread]
  rfl

end

/-- Settles O25: the owner's solver operations by what the round has come to, DFIN by its three parts, a submission by
what its read meets. -/
theorem derrickRounds : Obligations.DerrickRounds := by
  refine ⟨fun s r c o h => ⟨fun hl => ⟨fun x => exec_dnext_ready h hl, exec_dnext_none h hl, exec_dnext_waits h hl⟩,
    fun hl elapsed => ⟨_, exec_dstat h hl elapsed, fun hcur => ?_,
      fun q hcur => ⟨dstatWord_limit hcur elapsed, dstatWord_deadline hcur elapsed⟩⟩,
    fun hl q hcur hclean => ⟨fun hnew b1 recs => exec_dapply h hl hcur hclean hnew, exec_dprep h hl hcur hclean,
      exec_diter h hl hcur hclean⟩⟩,
    fun s r => ⟨fun c w hup => exec_dnextTimeout hup,
      fun c o elapsed q h hl hcur hport hclean => exec_dfin h hl hcur hport hclean, fun q rest p hup hsubs hplace =>
      ⟨_, exec_batchEnqueue hup r, fun b1 => batchEnqueue_refused hsubs hplace, fun b1 hread => ?_⟩⟩⟩
  · rw [dstatWord_none hcur]
    rfl
  · rw [batchEnqueue_read hsubs hplace hread]
    intro x y d dc begun kept
    have hgone : batchGone (subTaken r.val rest b1) r.val y = true ↔ begun := batchGone_iff _ _ y
    refine ⟨fun hc hlen hnew => ?_, fun hc hlen hbegun => ?_, fun hc hlen => ?_, fun hc hlen hnew => ?_⟩
    · rw [if_pos hc]
      exact batchMet_kept x hlen (mt hgone.mp hnew)
    · rw [if_pos hc]
      exact batchMet_gone x hlen (hgone.mpr hbegun)
    · rw [if_pos hc]
      exact batchMet_empty x hlen
    · rw [if_neg hc]
      exact congrArg (addCounter · q.ctx q.counter 1) (batchMet_kept x hlen (mt hgone.mp hnew))

end Sys2Proof.Machine
end

section
/-!
A flit on the wire (R266, R267, R300, R306, R316): where each symbol stands on the lanes, the code words that the lanes
give back, and that an encoded word decodes without error.
-/
namespace Sys2Proof.Machine

/-! ### Symbols on the lanes (R306, R316) -/

theorem getElem?_flatMap_pair_even {α β : Type} (f g : α → β) (l : List α) (i : Nat) :
    (l.flatMap fun n => [f n, g n])[2 * i]? = l[i]?.map f := by
  induction l generalizing i with
  | nil => rfl
  | cons a l ih =>
    cases i with
    | zero => rfl
    | succ i => exact ih i

theorem getElem?_flatMap_pair_odd {α β : Type} (f g : α → β) (l : List α) (i : Nat) :
    (l.flatMap fun n => [f n, g n])[2 * i + 1]? = l[i]?.map g := by
  induction l generalizing i with
  | nil => rfl
  | cons a l ih =>
    cases i with
    | zero => rfl
    | succ i => exact ih i

/-- The numbers below 8 × n of residue r modulo 8, in order. -/
theorem filter_mod_eight (r : Fin 8) (n : Nat) :
    (List.range (8 * n)).filter (fun m => m % 8 == r.val) = (List.range n).map (8 * · + r.val) := by
  induction n with
  | zero => rfl
  | succ n ih =>
    have hone : (List.range 8).filter (fun m => m % 8 == r.val) = [r.val] := by
      clear ih
      revert r
      decide
    have hlast : ((List.range 8).map (8 * n + ·)).filter (fun m => m % 8 == r.val) = [8 * n + r.val] := by
      simp only [List.filter_map, Function.comp_def, Nat.mul_add_mod, hone, List.map_singleton]
    rw [Nat.mul_succ, List.range_add, List.filter_append, ih, hlast, List.range_succ, List.map_append]
    rfl

/-- The spare serves for one lane, so two symbols share a lane where they would without it. -/
theorem symbolLane_eq_iff (narrow : Bool) (spared : BitVec 4) (m n : Nat) :
    symbolLane narrow spared m = symbolLane narrow spared n ↔ narrow = true ∨ m % 8 = n % 8 := by
  cases narrow with
  | true => simp [symbolLane]
  | false =>
    simp only [symbolLane, Bool.false_eq_true, if_false, false_or]
    split <;> split <;> omega

theorem symbolLane_lt (narrow : Bool) (spared : BitVec 4) (n : Nat) : symbolLane narrow spared n < 9 := by
  unfold symbolLane
  dsimp only
  split <;> split <;> omega

/-- The symbols of a lane, in order: symbol n stands at its lane slot. -/
theorem getElem?_laneSymbols (narrow : Bool) (spared : BitVec 4) {n : Nat} (hn : n < 648) :
    ((List.range 648).filter fun m => symbolLane narrow spared m == symbolLane narrow spared n)[symbolSlot narrow n]? =
      some n := by
  have hshare : (fun m => symbolLane narrow spared m == symbolLane narrow spared n) =
      fun m => narrow || m % 8 == n % 8 := by
    funext m
    rw [Bool.eq_iff_iff]
    simp only [beq_iff_eq, Bool.or_eq_true, symbolLane_eq_iff narrow spared m n]
  rw [hshare]
  cases narrow with
  | true => simp [symbolSlot, hn]
  | false =>
    have hlane := filter_mod_eight ⟨n % 8, Nat.mod_lt n (by decide)⟩ 81
    simp only [Nat.reduceMul] at hlane
    simp only [Bool.false_or, hlane, symbolSlot, Bool.false_eq_true, if_false, List.getElem?_map]
    rw [List.getElem?_range (by omega)]
    exact congrArg some (Nat.div_add_mod n 8)

section
variable (narrow : Bool) (spared : BitVec 4) (ws : List (BitVec 144))

theorem getD_toWire {l : Nat} (hl : l < 9) : (toWire narrow spared ws).getD l [] =
    ((List.range 648).filter fun n => symbolLane narrow spared n == l).flatMap fun n => pam4 (wireSymbol ws n) := by
  simp [toWire, hl]

/-- A symbol's two unit intervals stand side by side on its lane, the more significant first. -/
theorem toWire_symbol {n : Nat} (hn : n < 648) :
    let l := (toWire narrow spared ws).getD (symbolLane narrow spared n) []
    l[2 * symbolSlot narrow n]? = some ((wireSymbol ws n).extractLsb' 2 2) ∧
      l[2 * symbolSlot narrow n + 1]? = some ((wireSymbol ws n).extractLsb' 0 2) := by
  rw [getD_toWire narrow spared ws (symbolLane_lt narrow spared n)]
  have hslot := getElem?_laneSymbols narrow spared hn
  exact ⟨(getElem?_flatMap_pair_even _ _ _ _).trans (by rw [hslot]; rfl),
    (getElem?_flatMap_pair_odd _ _ _ _).trans (by rw [hslot]; rfl)⟩

theorem pam4_append (x : Sym) : x.extractLsb' 2 2 ++ x.extractLsb' 0 2 = x := by
  revert x
  decide

/-- The lanes give each symbol back. -/
theorem laneSymbol_toWire {n : Nat} (hn : n < 648) :
    laneSymbol narrow spared (toWire narrow spared ws) n = wireSymbol ws n := by
  obtain ⟨hhigh, hlow⟩ := toWire_symbol narrow spared ws hn
  simp only [laneSymbol, List.getD_eq_getElem?_getD] at hhigh hlow ⊢
  rw [hhigh, hlow]
  exact pam4_append (wireSymbol ws n)

/-! ### Code words from their symbols -/

/-- The low n symbols of a word, put together. -/
theorem getLsbD_foldl_symbols (w : BitVec 144) (n k : Nat) :
    ((List.range n).foldl (fun x j => x ||| ((symbolOf w j).setWidth 144 <<< (4 * j))) (0 : BitVec 144)).getLsbD k =
      (decide (k < 4 * n) && w.getLsbD k) := by
  induction n with
  | zero => simp
  | succ n ih =>
    rw [List.range_succ, List.foldl_append, List.foldl_cons, List.foldl_nil, BitVec.getLsbD_or, ih]
    by_cases hlow : k < 4 * n
    · simp [hlow, show k < 4 * (n + 1) by omega]
    · by_cases hword : k < 144
      · have hshift : 4 * n + (k - 4 * n) = k := by omega
        simp [symbolOf, hlow, hword, hshift, show k - 4 * n < 4 ↔ k < 4 * (n + 1) by omega]
      · simp [hword, hlow, BitVec.getLsbD_of_ge w k (by omega)]

theorem foldl_symbols (w : BitVec 144) :
    (List.range 36).foldl (fun x j => x ||| ((symbolOf w j).setWidth 144 <<< (4 * j))) (0 : BitVec 144) = w := by
  refine BitVec.eq_of_getLsbD_eq fun k hk => ?_
  rw [getLsbD_foldl_symbols, decide_eq_true (by omega), Bool.true_and]

/-- Eighteen code words come back from the lanes. -/
theorem fromWire_toWire (hlen : ws.length = 18) : fromWire narrow spared (toWire narrow spared ws) = ws := by
  refine List.ext_getElem (by simp [fromWire, hlen]) fun i hi _ => ?_
  have hi18 : i < 18 := by simpa [fromWire] using hi
  have hsymbol : ∀ j ∈ List.range 36,
      laneSymbol narrow spared (toWire narrow spared ws) (36 * i + j) = symbolOf ws[i] j := by
    intro j hj
    rw [List.mem_range] at hj
    rw [laneSymbol_toWire narrow spared ws (by omega), wireSymbol, show (36 * i + j) / 36 = i by omega,
      show (36 * i + j) % 36 = j by omega, List.getD_eq_getElem _ _ (by omega)]
  simp only [fromWire, List.getElem_map, List.getElem_range]
  rw [← foldl_symbols ws[i]]
  exact List.foldl_ext _ _ _ fun x j hj => by rw [hsymbol j hj]

end

/-! ### An encoded word holds no error (R266, R267) -/

/-- The columns of the check symbols. -/
theorem colScale_codeCol_check (e : Sym) :
    colScale e (codeCol 32) = ⟨e, 0, 0, 0⟩ ∧ colScale e (codeCol 33) = ⟨0, 0, 0, e⟩ ∧
      colScale e (codeCol 34) = ⟨e, e, 0, e⟩ ∧ colScale e (codeCol 35) = ⟨e, 0, e, gfMul 8 e⟩ := by
  revert e
  decide

/-- What the 32 data symbols of a word add to the syndrome. -/
def dataSyndrome (w : BitVec 144) : Col :=
  (List.range 32).foldl (fun s i => colAdd s (colScale (symbolOf w i) (codeCol i))) colZero

theorem syndrome_eq (w : BitVec 144) : syndrome w =
    ⟨(dataSyndrome w).a ^^^ symbolOf w 32 ^^^ symbolOf w 34 ^^^ symbolOf w 35, (dataSyndrome w).b ^^^ symbolOf w 34,
      (dataSyndrome w).c ^^^ symbolOf w 35,
      (dataSyndrome w).d ^^^ symbolOf w 33 ^^^ symbolOf w 34 ^^^ gfMul 8 (symbolOf w 35)⟩ := by
  have hsplit : List.range 36 = List.range 32 ++ [32, 33, 34, 35] := by decide
  obtain ⟨h32, -, -, -⟩ := colScale_codeCol_check (symbolOf w 32)
  obtain ⟨-, h33, -, -⟩ := colScale_codeCol_check (symbolOf w 33)
  obtain ⟨-, -, h34, -⟩ := colScale_codeCol_check (symbolOf w 34)
  obtain ⟨-, -, -, h35⟩ := colScale_codeCol_check (symbolOf w 35)
  rw [syndrome, hsplit, List.foldl_append, ← dataSyndrome]
  simp [h32, h33, h34, h35, colAdd]

section
variable (d : BitVec 128)

theorem symbolOf_eccEncode_data {i : Nat} (hi : i < 32) : symbolOf (eccEncode d) i = symbolOf (d.setWidth 144) i := by
  rw [symbolOf, eccEncode, BitVec.extractLsb'_append_eq_of_add_le (by omega), symbolOf,
    BitVec.extractLsb'_setWidth_of_le (by omega)]

theorem dataSyndrome_eccEncode : dataSyndrome (eccEncode d) = dataSyndrome (d.setWidth 144) :=
  List.foldl_ext _ _ _ fun s i hi => by rw [symbolOf_eccEncode_data d (List.mem_range.mp hi)]

/-- Data alone have no check symbols. -/
theorem symbolOf_setWidth_check {i : Nat} (hi : 32 ≤ i) : symbolOf (d.setWidth 144) i = 0 := by
  refine BitVec.eq_of_getLsbD_eq fun k _ => ?_
  simp [symbolOf, BitVec.getLsbD_of_ge d (4 * i + k) (by omega)]

theorem syndrome_setWidth : syndrome (d.setWidth 144) = dataSyndrome (d.setWidth 144) := by
  have hzero : gfMul 8 0 = 0 := by decide
  rw [syndrome_eq, symbolOf_setWidth_check d (by decide), symbolOf_setWidth_check d (by decide),
    symbolOf_setWidth_check d (by decide), symbolOf_setWidth_check d (by decide), hzero]
  simp

theorem extractLsb'_four_symbols (w z y x : Sym) :
    (w ++ z ++ y ++ x).extractLsb' 0 4 = x ∧ (w ++ z ++ y ++ x).extractLsb' 4 4 = y ∧
      (w ++ z ++ y ++ x).extractLsb' 8 4 = z ∧ (w ++ z ++ y ++ x).extractLsb' 12 4 = w :=
  ⟨BitVec.extractLsb'_append_eq_right, (BitVec.extractLsb'_append_eq_of_le (by decide)).trans
      BitVec.extractLsb'_append_eq_right,
    (BitVec.extractLsb'_append_eq_of_le (by decide)).trans <| (BitVec.extractLsb'_append_eq_of_le (by decide)).trans
      BitVec.extractLsb'_append_eq_right,
    (BitVec.extractLsb'_append_eq_of_le (by decide)).trans <| (BitVec.extractLsb'_append_eq_of_le (by decide)).trans <|
      (BitVec.extractLsb'_append_eq_of_le (by decide)).trans BitVec.extractLsb'_eq_self⟩

/-- The check symbols are those that the encoder chooses. -/
theorem symbolOf_eccEncode_check :
    let s := dataSyndrome (d.setWidth 144)
    symbolOf (eccEncode d) 32 = s.a ^^^ s.b ^^^ s.c ∧ symbolOf (eccEncode d) 33 = s.d ^^^ s.b ^^^ gfMul 8 s.c ∧
      symbolOf (eccEncode d) 34 = s.b ∧ symbolOf (eccEncode d) 35 = s.c := by
  intro s
  have hcheck (j : Nat) : symbolOf (eccEncode d) (32 + j) = (eccCheck d).extractLsb' (4 * j) 4 := by
    rw [symbolOf, eccEncode, BitVec.extractLsb'_append_eq_of_le (by omega)]
    rw [show 4 * (32 + j) - 128 = 4 * j by omega]
  simp only [eccCheck, syndrome_setWidth] at hcheck
  obtain ⟨h32, h33, h34, h35⟩ :=
    extractLsb'_four_symbols s.c s.b (s.d ^^^ s.b ^^^ gfMul 8 s.c) (s.a ^^^ s.b ^^^ s.c)
  exact ⟨(hcheck 0).trans h32, (hcheck 1).trans h33, (hcheck 2).trans h34, (hcheck 3).trans h35⟩

/-- The check symbols of the first row and of the last take away all that stands in it. -/
theorem sym_xor_cancel (x y z : Sym) : x ^^^ (x ^^^ y ^^^ z) ^^^ y ^^^ z = 0 := by
  calc x ^^^ (x ^^^ y ^^^ z) ^^^ y ^^^ z
    _ = (x ^^^ y ^^^ z) ^^^ (x ^^^ y ^^^ z) := by ac_rfl
    _ = 0 := BitVec.xor_self

/-- The syndrome of an encoded word is zero. -/
theorem syndrome_eccEncode : syndrome (eccEncode d) = colZero := by
  obtain ⟨h32, h33, h34, h35⟩ := symbolOf_eccEncode_check d
  rw [syndrome_eq, dataSyndrome_eccEncode, h32, h33, h34, h35]
  simp only [sym_xor_cancel, BitVec.xor_self]
  rfl

theorem eccDecode_eccEncode : eccDecode (eccEncode d) = .clean := by simp [eccDecode, syndrome_eccEncode]

theorem toNat_eccEncode_mod : (eccEncode d).toNat % 2 ^ 128 = d.toNat := by
  rw [← BitVec.toNat_setWidth, eccEncode, BitVec.setWidth_append_eq_right]

end

/-! ### The content of a flit (R300) -/

theorem leNat_lt (l : List Byte) : leNat l < 256 ^ l.length := by
  induction l with
  | nil => simp [leNat]
  | cons x l ih =>
    have hx := x.isLt
    simp only [leNat, List.length_cons, pow_succ']
    omega

/-- Bytes are those of the number they spell. -/
theorem leBytes_leNat (l : List Byte) : leBytes l.length (leNat l) = l := by
  induction l with
  | nil => rfl
  | cons x l ih =>
    have hlow : BitVec.ofNat 8 (x.toNat + 256 * leNat l) = x := by
      apply BitVec.eq_of_toNat_eq
      have hx := x.isLt
      rw [BitVec.toNat_ofNat]
      omega
    have hrest : (x.toNat + 256 * leNat l) / 256 = leNat l := by
      have hx := x.isLt
      omega
    simp only [leNat, List.length_cons, leBytes, hlow, hrest, ih]

theorem decodeWords_map_eccEncode (l : List (BitVec 128)) :
    decodeWords (l.map eccEncode) = some (l.flatMap fun d => leBytes 16 d.toNat, 0) := by
  induction l with
  | nil => rfl
  | cons d l ih =>
    rw [decodeWords] at ih
    rw [List.map_cons, decodeWords, List.foldr_cons, ih, eccDecode_eccEncode]
    simp only [toNat_eccEncode_mod, List.flatMap_cons]

theorem flatMap_chunks {α : Type} (x : List α) (k n : Nat) :
    ((List.range n).flatMap fun i => (x.drop (k * i)).take k) = x.take (k * n) := by
  induction n with
  | zero => simp
  | succ n ih =>
    rw [List.range_succ, List.flatMap_append, ih, List.flatMap_singleton, Nat.mul_succ, List.take_add]

/-- Encoded content decodes, with nothing to correct. -/
theorem decodeWords_flitWords {x : List Byte} (hlen : x.length = 288) : decodeWords (flitWords x) = some (x, 0) := by
  have hchunk : ∀ i ∈ List.range 18,
      leBytes 16 (BitVec.ofNat 128 (leNat ((x.drop (16 * i)).take 16))).toNat = (x.drop (16 * i)).take 16 := by
    intro i hi
    rw [List.mem_range] at hi
    have hsize : ((x.drop (16 * i)).take 16).length = 16 := by
      rw [List.length_take, List.length_drop]
      omega
    have hbound := leNat_lt ((x.drop (16 * i)).take 16)
    have hback := leBytes_leNat ((x.drop (16 * i)).take 16)
    rw [hsize] at hbound hback
    rw [BitVec.toNat_ofNat, Nat.mod_eq_of_lt (by simpa using hbound), hback]
  have hwords : flitWords x =
      ((List.range 18).map fun i => BitVec.ofNat 128 (leNat ((x.drop (16 * i)).take 16))).map eccEncode := by
    rw [List.map_map]
    rfl
  rw [hwords, decodeWords_map_eccEncode, List.flatMap_map, List.flatMap_congr hchunk, flatMap_chunks,
    List.take_of_length_le (by omega)]

/-- Settles O33: each symbol stands at its slot, so the lanes give the words back, and encoded words decode clean. -/
theorem flitsOnTheWire : Obligations.FlitsOnTheWire := by
  intro narrow spared
  refine ⟨fromWire_toWire narrow spared, fun x hlen => ?_, fun ws n hn => toWire_symbol narrow spared ws hn⟩
  rw [fromWire_toWire narrow spared _ (by simp [flitWords]), decodeWords_flitWords hlen]

end Sys2Proof.Machine
end

section
/-!
Bulk frames of an open session (R431, R432, R463, R469): a write, a write with a signal, a read, and what refuses them.
-/
namespace Sys2Proof.Machine

section
variable {b : Block} {v : Session} {id seq c l : Nat} (hopen : tlook b.sessions id = some v)

/-! ### Writes -/

/-- A write to control space is ignored and counted (R292). -/
theorem bulkWrite_control (hctl : isControl l = true) (x : List Byte) :
    bulkWrite b v id seq c l x = (blkClamp b (blkIndex l) 1, true) := by
  simp only [bulkWrite, hctl, if_true]

/-- With no load window open, a write that nothing refuses stores its bytes. -/
theorem bulkWrite_granted (hmem : isControl l = false) (hwindow : b.hp.window = none) {x : List Byte}
    (hgrant : bulkRefusal b v c l x.length 0x50 = none) :
    bulkWrite b v id seq c l x = (retryReplay (bulkStore b l x), true) := by
  simp only [bulkWrite, hmem, hwindow, hgrant, Bool.false_eq_true, Bool.false_and, if_false]

include hopen

/-- A write that is not refused ends with what a unit waited for. -/
theorem cmdBulkWrite_done {d : Block} {x : List Byte} (hdone : bulkWrite b v id seq c l x = (d, true)) :
    cmdBulkWrite id seq c l x b = settleAll d := by
  simp only [cmdBulkWrite, hopen, hdone]

/-- The signal of a write that is not refused adds to its counter word. -/
theorem cmdBulkSignal_done {d : Block} {x : List Byte} (hdone : bulkWrite b v id seq c l x = (d, true)) {ctr : Nat}
    (hgrant : bulkRefusal b v c (ctr / 8 * 8) 8 0x50 = none) (inc : U64) :
    let a := ctr / 8 * 8
    cmdBulkSignal id seq c l x ctr inc b = settleAll (updateMem (wakeStack d a) a a 8 (addWord inc)).1 := by
  simp only [cmdBulkSignal, hopen, hgrant, hdone, if_true]

theorem cmdBulkSignal_refused {ctr why : Nat} (hwhy : bulkRefusal b v c (ctr / 8 * 8) 8 0x50 = some why) (x : List Byte)
    (inc : U64) : cmdBulkSignal id seq c l x ctr inc b = bulkRefuse b id seq c why := by
  simp only [cmdBulkSignal, hopen, hwhy]

/-! ### Reads -/

theorem cmdBulkRead_tooLong {n : Nat} (hn : 2 ^ 24 < n) : cmdBulkRead id seq c l n b = bulkRefuse b id seq c 0x54 := by
  simp only [cmdBulkRead, hopen, if_pos hn]

section
variable {n : Nat} (hn : n ≤ 2 ^ 24) (hmem : isControl l = false) (hgrant : bulkRefusal b v c l n 0x51 = none)
include hn hmem hgrant

/-- A read that meets no uncorrectable word streams the bytes. -/
theorem cmdBulkRead_clean (hread : (readOwn (wakeStack b l) l n).1.2 = none) :
    let r := readOwn (wakeStack b l) l n
    cmdBulkRead id seq c l n b = streamUnit r.1.1 id 4 c seq l r.2 := by
  simp only [cmdBulkRead, hopen, if_neg (Nat.not_lt.mpr hn), hmem, hgrant, hread, Bool.false_and, Bool.false_eq_true,
    if_false]

/-- One that meets such a word streams zero bytes (R268). -/
theorem cmdBulkRead_uncorrected {e : Nat} (hread : (readOwn (wakeStack b l) l n).1.2 = some e) :
    cmdBulkRead id seq c l n b =
      streamUnit (memFault (readOwn (wakeStack b l) l n).1.1 e) id 4 c seq l (List.replicate n 0) := by
  simp only [cmdBulkRead, hopen, if_neg (Nat.not_lt.mpr hn), hmem, hgrant, hread, Bool.false_and, Bool.false_eq_true,
    if_false]

end

end

/-- Settles O46: each frame by the check that it passes or that refuses it. -/
theorem bulkFrames : Obligations.BulkFrames := fun _ _ _ _ _ _ hup hopen =>
  ⟨fun _ hmem hwindow hgrant =>
      have hdone := bulkWrite_granted hmem hwindow hgrant
      ⟨actUp_eq hup (cmdBulkWrite_done hopen hdone),
        fun _ inc hcounter => actUp_eq hup (cmdBulkSignal_done hopen hdone hcounter inc)⟩,
    fun x hctl => actUp_eq hup (cmdBulkWrite_done hopen (bulkWrite_control hctl x)),
    fun x _ inc _ hwhy => actUp_eq hup (cmdBulkSignal_refused hopen hwhy x inc),
    fun _ hn hmem hgrant => ⟨fun hread => actUp_eq hup (cmdBulkRead_clean hopen hn hmem hgrant hread),
      fun _ hread => actUp_eq hup (cmdBulkRead_uncorrected hopen hn hmem hgrant hread)⟩,
    fun _ hn => actUp_eq hup (cmdBulkRead_tooLong hopen hn)⟩

end Sys2Proof.Machine
end

section
/-!
House reports, probes and succession (R354 to R357): each message and each silence where its conditions hold.
-/
namespace Sys2Proof.Machine

/-! ### Reports and probes (R357) -/

/-- A report not seen before is noted, and goes to the keeper. -/
theorem suspectReport_new {b : Block} {c : Nat} (hctx : resident b c = true) (htable : b.torus.valid = true)
    (hread : (readOwn b (reportBase b c) 16).1.2 = none)
    (hnew : tget b.house.seenRpt 0 c ≠ leNat ((readOwn b (reportBase b c) 16).2.take 8)) :
    let r := readOwn b (reportBase b c) 16
    let m := leNat ((r.2.drop 8).take 2) % 2 ^ 15
    let d := setHouse r.1.1 fun h =>
      { h with seenRpt := tput h.seenRpt 0 c (leNat (r.2.take 8)), pendingRpt := h.pendingRpt ++ [(c, m)] }
    suspectReport c b = if d.house.isKeeper then takeReport d (ownNo d) m
      else sendHouse d d.geo.keeper.toNat { stateMsg d 3 d.geo.keeper.toNat with subject := BitVec.ofNat 15 m } := by
  simp only [suspectReport, hctx, htable, hread, Option.isNone_none, bne_iff_ne.mpr hnew, Bool.and_self, if_true]

/-- A message that waits has the effect `f` of its type on what its taking left. -/
theorem actUp_received {s : State} {kind m : Nat} {x : HouseMsg} {b1 : Block} (hmsg : Received s kind m x b1)
    {f : Block → Block} {d : Block} (hf : takeMsg s.blk kind m = (some x, b1) → f s.blk = d) :
    actUp f s = .next (became s d) := by
  obtain ⟨hup, htake⟩ := hmsg
  exact actUp_eq hup (hf htake)

section
variable {b b1 : Block} {m : Nat} {x : HouseMsg}

theorem suspectEff_taken (htake : takeMsg b 3 m = (some x, b1)) :
    suspectEff m b = if b1.house.isKeeper then takeReport b1 m x.subject.toNat else b1 := by
  simp only [suspectEff, htake]

theorem probeEff_taken (htake : takeMsg b 4 m = (some x, b1)) :
    probeEff m b = sendHouse b1 m { stateMsg b1 5 m with subject := b1.geo.own } := by
  simp only [probeEff, htake]

theorem echoEff_taken (htake : takeMsg b 5 m = (some x, b1)) :
    echoEff m b = if b1.house.isKeeper then closeProbes b1 m true
      else if m = b1.geo.keeper.toNat then answerOwn b1 x.subject.toNat 0 else b1 := by
  simp only [echoEff, htake]

theorem deadEff_taken (htake : takeMsg b 6 m = (some x, b1)) :
    deadEff m b = if b1.house.isFirst then declareDead b1 (namedDead b1 x)
      else if m = b1.geo.keeper.toNat then answerOwn b1 x.subject.toNat (deadResult b1 x.subject.toNat) else b1 := by
  simp only [deadEff, htake]

/-- A probe that is open when its time ends declares the suspect dead and answers its reporters. -/
theorem probeTimeout_open (hkeeper : b.house.isKeeper = true) (hprobe : ∃ p ∈ b.house.probes, p.1 = m) :
    probeTimeout m b = closeProbes (declareDead b [m]) m false := by
  have hany : (b.house.probes.any fun p => p.1 == m) = true := by simpa using hprobe
  simp only [probeTimeout, hkeeper, hany, Bool.and_self, if_true]

/-! ### Silence (R354, R355) -/

theorem memberSilence_keeper (hkeeper : b.house.isKeeper = true) (hmember : (otherMembers b).contains m = true) :
    memberSilence m b = declareDead b [m] := by
  simp only [memberSilence, hkeeper, hmember, Bool.and_self, if_true]

/-- The module whose turn it is takes the role. -/
theorem keeperSilence_turn {c : Nat} (htable : b.torus.valid = true) (hmember : b.house.isKeeper = false)
    (hlive : b.fab.fenced = false) (hturn : turnOf b (ownNo b) = some c) : keeperSilence c b = takeRole b c := by
  simp only [keeperSilence, htable, hmember, hlive, hturn, Bool.not_false, Bool.and_self, BEq.rfl, if_true]

end

/-- Settles O36: each message and each silence is its one effect. -/
theorem houseReportsAndSilence : Obligations.HouseReportsAndSilence := by
  refine ⟨fun s => ⟨fun c hup hctx htable hread hnew => actUp_eq hup (suspectReport_new hctx htable hread hnew),
      fun m x b1 hmsg => actUp_received hmsg suspectEff_taken, fun m x b1 hmsg => actUp_received hmsg probeEff_taken,
      fun m x b1 hmsg => ?_, fun m x b1 hmsg => ?_,
      fun m hup hkeeper hprobe => actUp_eq hup (probeTimeout_open hkeeper hprobe)⟩,
    fun s hup => ⟨fun m hkeeper hmember => actUp_eq hup (memberSilence_keeper hkeeper hmember),
      fun c htable hmember hlive hturn => actUp_eq hup (keeperSilence_turn htable hmember hlive hturn)⟩⟩
  · simp only [← BitVec.toNat_inj]
    exact actUp_received hmsg echoEff_taken
  · simp only [← BitVec.toNat_inj]
    exact actUp_received hmsg deadEff_taken

end Sys2Proof.Machine
end

section
/-!
The update class of a Reckoner's own program (R268, R368 to R372, R376, R378, R379, R383): what an update and the two
forms of UPD.NORM leave when nothing stands in their way.
-/
namespace Sys2Proof.Machine

/-- An update instruction whose reads meet no uncorrectable word has its effect on what they leave (R268, R386). -/
theorem onReads_clean {b b1 : Block} {k : Nat} {l : List (Nat × Nat × Nat)} (hstore : (rckOf b k).storeBad = false)
    (hread : readsMet b l = (b1, none)) (eff : Block → Block) : onReads b k l eff = eff b1 := by
  simp only [onReads, hstore, hread, Bool.false_eq_true, if_false]

/-- An instruction of a program's own has its own effect (R162). -/
theorem actUp_orBuiltin {s : State} {u : UnitId} {c : Nat} (h : Executes s u c) {kind : RckKind} {f : Block → Block}
    {d : Block} (hd : f s.blk = d) : actUp (orBuiltin kind u f) s = .next (became s d) :=
  actUp_eq h.1 ((orBuiltin_of_executes h kind f).trans hd)

/-! ### The operands of an instruction on a shard (R370) -/

section
variable (b : Block) (c : Nat) (r : Fin 12) (o : Ops)

/-- The local address of the shard record. -/
def shardAt : Nat := faLocal (recOp b (sreg (img b c (.reckoner r)) (fa o))).1

def opShard : Shard := readShard b (shardAt b c r o)

/-- The group of the shard. -/
def opGrp : Grp := readGrp b (ctxOf b c) (opShard b c r o).group

def opSpan : Span := spanOf b (img b c (.reckoner r)) o (opShard b c r o).n

/-- The span is not empty and ends the shard: an update signals the notify list (R383). -/
def spanEnds : Bool :=
  (opSpan b c r o).first + (opSpan b c r o).count == (opShard b c r o).n && (opSpan b c r o).count != 0

/-- What an update by `rule` leaves of the block `b1` that its reads left, by the state of its group (R378, R379). -/
def updDone (rule : Nat) (b1 : Block) : Block :=
  let u := UnitId.reckoner r
  let h := opShard b c r o
  let g := opGrp b c r o
  let sp := opSpan b c r o
  let w := mkWord 0x20 (rule + 1) o
  let out (x : U64) (j : UnitImg) : UnitImg := setS j (fd o) x
  if !grpValid g then updRefuse b1 c r.val u w out h sp (sp.clamps + 1)
  else if grpFrozen g then updRefuse b1 c r.val u w out h sp sp.clamps
  else if grpNorm g && tget (rckOf b r.val).skip false c then updSkip b1 c r.val u w out h sp sp.clamps
  else updRun b1 c r.val rule u w out h g sp (fval (img b c u) (fe o)) (sp.clamps + g.gclamp) (spanEnds b c r o)

/-- The group takes part in the global norm (R376). -/
def inNorm : Bool := grpValid (opGrp b c r o) && !grpFrozen (opGrp b c r o) && grpNorm (opGrp b c r o)

/-- What UPD.NORM form 0 leaves of the block `b1` that its reads left. -/
def normPartialDone (b1 : Block) : Block :=
  let g := opGrp b c r o
  let sp := opSpan b c r o
  let t := recOp b (sreg (img b c (.reckoner r)) (fe o))
  let q := if inNorm b c r o then squares b1 g (opShard b c r o) sp else (seamEmpty, {})
  retireOut (rckHw (if inNorm b c r o then mergeSlot b1 c t.1 q.1 else b1) r.val 0) c (.reckoner r) (mkWord 0x20 0x00 o)
    (fun j => setS j (fd o) (BitVec.ofNat 64 (if inNorm b c r o then sp.count else 0)))
    fun j => rckCount j (evAdd q.2 (evClamps (sp.clamps + t.2 + if inNorm b c r o then g.gclamp else 0))) 0 0 0

end

theorem inNorm_iff {b : Block} {c : Nat} {r : Fin 12} {o : Ops} : inNorm b c r o = true ↔
    grpValid (opGrp b c r o) = true ∧ grpFrozen (opGrp b c r o) = false ∧ grpNorm (opGrp b c r o) = true := by
  simp only [inNorm, Bool.and_eq_true, Bool.not_eq_true', and_assoc]

section
variable {s : State} {r : Fin 12} {c : Nat} (h : Executes s (.reckoner r) c) {o : Ops} {b1 : Block}
  (hrec : lowBad s.blk c r.val (shardAt s.blk c r o) 128 = none) (hstore : (rckOf s.blk r.val).storeBad = false)
include h hrec hstore

/-! ### Updates (R368 to R372, R378, R379, R383) -/

/-- A legal update acts by the state of its group: its record, arrays and notify list are where R368 wants them, its
remote ranges have come, its reads can be corrected. -/
theorem updEff_ready (rule : Nat) (hl : legalUpd o = true)
    (hcome : ((updFetches (opShard s.blk c r o) (spanEnds s.blk c r o)).any fun q =>
      missing s.blk c (img s.blk c (.reckoner r)) q.1 q.2) = false)
    (hmapped : leastAddr (shardBad s.blk c r.val (img s.blk c (.reckoner r)) (opShard s.blk c r o)
        (grpWidth (opGrp s.blk c r o)) (rule != 2) ++
      if spanEnds s.blk c r o then
        (badByte s.blk c (opShard s.blk c r o).notify (notifyRange (opShard s.blk c r o)).2).toList else []) = none)
    (hread : readsMet s.blk (updReads s.blk c r.val (shardAt s.blk c r o) (opShard s.blk c r o) (opGrp s.blk c r o)
      (opSpan s.blk c r o) (rule != 2)) = (b1, none)) :
    updEff (rule + 1) rule (.reckoner r) o s.blk = updDone s.blk c r o rule b1 := by
  unfold spanEnds opSpan opGrp opShard shardAt at *
  simp only [updEff, accepts, hl, Bool.and_self, issue_effect s _ c h, updAt, regionOf, hrec, hcome, hmapped,
    onReads_clean hstore hread, Bool.false_eq_true, if_false]
  rfl

/-! ### The global norm (R376, R378) -/

theorem updNormPartialEff_ready (hl : legalNormPartial o = true)
    (hcome : ((updFetches (opShard s.blk c r o) false).any fun q =>
      missing s.blk c (img s.blk c (.reckoner r)) q.1 q.2) = false)
    (hmapped : leastAddr (shardBad s.blk c r.val (img s.blk c (.reckoner r)) (opShard s.blk c r o)
        (grpWidth (opGrp s.blk c r o)) (grpRule (opGrp s.blk c r o) != 2) ++
      (badByte s.blk c (recOp s.blk (sreg (img s.blk c (.reckoner r)) (fe o))).1 64).toList) = none)
    (hread : readsMet s.blk (localReads [(shardAt s.blk c r o, 128),
        (grpBase (ctxOf s.blk c) (opShard s.blk c r o).group, 128),
        ((opShard s.blk c r o).seams + 64 * (opSpan s.blk c r o).first, 64 * (opSpan s.blk c r o).count)] ++
      slotReads s.blk c (recOp s.blk (sreg (img s.blk c (.reckoner r)) (fe o))).1) = (b1, none)) :
    updNormPartialEff (.reckoner r) o s.blk = normPartialDone s.blk c r o b1 := by
  unfold opSpan opGrp opShard shardAt at *
  simp only [updNormPartialEff, accepts, hl, Bool.and_self, issue_effect s _ c h, normPartialAt, regionOf, hrec, hcome,
    hmapped, onReads_clean hstore hread, Bool.false_eq_true, if_false]
  rfl

end

/-- A group in the norm adds the squares of its gradients to the slot, and the instruction writes how many. -/
theorem normPartialDone_live {b : Block} {c : Nat} {r : Fin 12} {o : Ops} (hlive : inNorm b c r o = true) (b1 : Block) :
    let t := recOp b (sreg (img b c (.reckoner r)) (fe o))
    let q := squares b1 (opGrp b c r o) (opShard b c r o) (opSpan b c r o)
    let b2 := rckHw (mergeSlot b1 c t.1 q.1) r.val 0
    let j := rckCount (img b2 c (.reckoner r)) (evAdd q.2 (evClamps ((opSpan b c r o).clamps + t.2 +
      (opGrp b c r o).gclamp))) 0 0 0
    normPartialDone b c r o b1 = retireAfter b2 c (.reckoner r) (mkWord 0x20 0x00 o)
      (if j.builtin then j else setS j (fd o) (BitVec.ofNat 64 (opSpan b c r o).count)) := by
  simp only [normPartialDone, hlive, if_true, retireOut]

/-- Any other group adds nothing. -/
theorem normPartialDone_idle {b : Block} {c : Nat} {r : Fin 12} {o : Ops} (hidle : inNorm b c r o = false)
    (b1 : Block) :
    let t := recOp b (sreg (img b c (.reckoner r)) (fe o))
    let b2 := rckHw b1 r.val 0
    let j := rckCount (img b2 c (.reckoner r)) (evAdd {} (evClamps ((opSpan b c r o).clamps + t.2 + 0))) 0 0 0
    normPartialDone b c r o b1 = retireAfter b2 c (.reckoner r) (mkWord 0x20 0x00 o)
      (if j.builtin then j else setS j (fd o) 0) := by
  simp only [normPartialDone, hidle, Bool.false_eq_true, if_false, retireOut]
  rfl

/-! ### The total -/

/-- Retiring, or waiting for remote writes to end, keeps the contexts and, of the unit's image, the f registers. -/
theorem retireAfter_ctxs (b : Block) (c : Nat) (u : UnitId) (w : U64) (i : UnitImg) :
    (retireAfter b c u w i).ctxs = b.ctxs := by
  unfold retireAfter
  split <;> rfl

theorem freg_retireAfter (b : Block) (c : Nat) (u : UnitId) (w : U64) (i : UnitImg) (x : BitVec 5) :
    freg (img (retireAfter b c u w i) c u) x = freg i x := by
  unfold retireAfter
  split
  · rw [retire_img]
    exact (congrArg (fun j => freg j x) (retired_accessed_frame i) :)
  · rw [park_img]
    rfl

/-- A program's own instruction writes its result registers. -/
theorem freg_retireOut {b : Block} {c : Nat} {u : UnitId} {g : UnitImg → UnitImg}
    (hown : (g (img b c u)).builtin = false) (w : U64) (f : UnitImg → UnitImg) (x : BitVec 5) :
    freg (img (retireOut b c u w f g) c u) x = freg (f (g (img b c u))) x := by
  rw [retireOut, freg_retireAfter, if_neg (by rw [hown]; exact Bool.false_ne_true)]

@[simp] theorem rckCount_builtin (i : UnitImg) (e : Ev) (refuse nonfin skip : Nat) :
    (rckCount i e refuse nonfin skip).builtin = i.builtin := rfl

/-- What UPD.NORM form 1 leaves of the block `b1` that its reads left, with what the total gives. -/
def normTotalDone (b1 : Block) (c : Nat) (r : Fin 12) (o : Ops) (clamps : Nat) (n : NormOut) : Block :=
  let x := ctxOf b1 c
  let k := rckOf b1 r.val
  retireOut (rckHw (setCtx (setRck b1 r.val { k with skip := if n.bad then tins k.skip c true else k.skip }) c
      { x with norm := code64 n.root, clip := code64 n.clip, normSkip := x.normSkip || n.bad }) r.val 0)
    c (.reckoner r) (mkWord 0x20 0x00 o) (fun j => setF (setF j (fe o) (code64 n.root)) (fd o) (code64 n.clip))
    fun j => rckCount j (evAdd n.ev (evClamps (clamps + n.clamp))) 0 0 0

theorem updNormTotalEff_ready {s : State} {r : Fin 12} {c : Nat} (h : Executes s (.reckoner r) c) {o : Ops} {b1 : Block}
    (hstore : (rckOf s.blk r.val).storeBad = false) (hl : legalNormTotal o = true)
    (hmapped : badByte s.blk c (recOp s.blk (sreg (img s.blk c (.reckoner r)) (fa o))).1 64 = none)
    (hread : readsMet s.blk (slotReads s.blk c (recOp s.blk (sreg (img s.blk c (.reckoner r)) (fa o))).1 ++
      localReads [(utBase (ctxOf s.blk c), 64)]) = (b1, none)) :
    let t := recOp s.blk (sreg (img s.blk c (.reckoner r)) (fa o))
    let base := utBase (ctxOf b1 c)
    updNormTotalEff (.reckoner r) o s.blk = normTotalDone b1 c r o t.2
      (normOf (rdF64 b1 (base + 0x30)) (rdF64 b1 (base + 0x38))
        (seamRound .f64 (seamOfBytes (readBytes b1 c (img b1 c (.reckoner r)) t.1 64)))) := by
  simp only [updNormTotalEff, accepts, hl, Bool.and_self, issue_effect s _ c h, normTotalAt, regionOf, hmapped,
    onReads_clean hstore hread]
  rfl

section
variable (b1 : Block) (c : Nat) (r : Fin 12) (o : Ops) (clamps : Nat) (n : NormOut)

/-- The context keeps the norm and the clip factor for its record, and whether the step skips. -/
theorem ctxOf_normTotalDone : ctxOf (normTotalDone b1 c r o clamps n) c =
    { ctxOf b1 c with norm := code64 n.root, clip := code64 n.clip, normSkip := (ctxOf b1 c).normSkip || n.bad } := by
  rw [normTotalDone, retireOut, ctxOf, retireAfter_ctxs, rckHw, setRck_ctxs, ← ctxOf, ctxOf_setCtx_self]

/-- A program's own instruction has the clip factor in its result register. -/
theorem freg_normTotalDone (hown : (img b1 c (.reckoner r)).builtin = false) :
    freg (img (normTotalDone b1 c r o clamps n) c (.reckoner r)) (fd o) = code64 n.clip := by
  rw [normTotalDone, freg_retireOut, freg_setF, if_pos rfl]
  rw [rckCount_builtin, img, rckHw, setRck_units, setCtx_units, setRck_units, ← img, hown]

end

section
variable (l eps : FVal) (q : V64)

theorem normOf_root : (normOf l eps q).root = (op1 fSqrt q).1 := by
  unfold normOf
  split <;> rfl

theorem normOf_bad : (normOf l eps q).bad = !isFinite q.1 := by
  unfold normOf
  split <;> simp [*]

/-- The clip factor is NaN where the total is not finite. -/
theorem normOf_clip : (normOf l eps q).clip =
    if !isFinite q.1 then .nan else (clipOf l eps (op1 fSqrt q).1).1.1 := by
  unfold normOf
  split <;> simp [*]

end

/-- Settles O26: an update acts by the state of its group, form 0 by whether its group takes part, and form 1 by what
the total gives. -/
theorem updatesAndNorms : Obligations.UpdatesAndNorms := by
  refine ⟨fun s r c o h hl => ?_, fun s r c o h => ?_⟩
  · intro u b i k a y g sp last out does ok hrec hcome hstore
    have hdone {rule : Nat} {b1 : Block} (hok : ok (rule != 2) b1) : updEff (rule + 1) rule u o b = does rule b1 := by
      obtain ⟨hmapped, hread⟩ := hok
      exact updEff_ready h hrec hstore rule hl hcome hmapped hread
    exact ⟨fun b1 hok => ⟨actUp_orBuiltin h (hdone (rule := 0) hok), actUp_orBuiltin h (hdone (rule := 1) hok)⟩,
      fun b1 hok => actUp_orBuiltin h (hdone (rule := 2) hok)⟩
  · intro u b i k w hstore
    refine ⟨fun hl => ?_, fun hl => ?_⟩
    · intro a t y g sp hrec hcome hmapped b1 hread
      have hdone := updNormPartialEff_ready h hrec hstore hl hcome hmapped hread
      refine ⟨fun hvalid hlive hnorm => ?_, fun hidle => ?_⟩
      · have hin : inNorm b c r o = true := inNorm_iff.mpr ⟨hvalid, hlive, hnorm⟩
        exact actUp_orBuiltin h (hdone.trans (normPartialDone_live hin b1))
      · exact actUp_orBuiltin h (hdone.trans (normPartialDone_idle hidle b1))
    · intro t hmapped b1 hread x q root bad clip
      let n := normOf (rdF64 b1 (utBase x + 0x30)) (rdF64 b1 (utBase x + 0x38)) q
      have hctx := ctxOf_normTotalDone b1 c r o t.2 n
      have hclip : n.clip = clip := normOf_clip _ _ q
      have hdone : updNormTotalEff u o b = normTotalDone b1 c r o t.2 n :=
        updNormTotalEff_ready h hstore hl hmapped hread
      refine ⟨normTotalDone b1 c r o t.2 n, actUp_orBuiltin h hdone, ?_, ?_, ?_, fun hown => ?_⟩
      · rw [hctx, normOf_root]
      · rw [hctx, hclip]
      · rw [hctx, normOf_bad]
      · rw [freg_normTotalDone _ _ _ _ _ _ hown, hclip]

end Sys2Proof.Machine
end

section
/-!
How a target judges a request (R293), and what becomes of requests, responses and their tags (R192, R295, R297, R324, R326).
-/
namespace Sys2Proof.Machine

/-! ### The order of R293 -/

section
variable {b : Block} {r : Request}

theorem judge_fenced (hfenced : b.fab.fenced = true) : judge b r = .refuse 7 := if_pos hfenced

section
variable (hopen : b.fab.fenced = false)
include hopen

theorem judge_noContext (hnone : ctxOfJob b (jobOf r.epoch) = none) : judge b r = .refuse 3 := by
  simp only [judge, hopen, hnone, Bool.false_eq_true, if_false]

variable {c : Nat} (hjob : ctxOfJob b (jobOf r.epoch) = some c)
include hjob

theorem judge_old (hold : genOf r.epoch < genOf (ctxOf b c).epoch) : judge b r = .refuse 1 := by
  simp only [judge, hopen, hjob, hold, Bool.false_eq_true, if_false, if_true]

theorem judge_early (hearly : genOf (ctxOf b c).epoch < genOf r.epoch) : judge b r = .refuse 2 := by
  simp only [judge, hopen, hjob, hearly, if_neg hearly.not_gt, Bool.false_eq_true, if_false, if_true]

/-- In the context's own generation the address decides. -/
theorem judge_current (hgen : genOf r.epoch = genOf (ctxOf b c).epoch) :
    judge b r = judgeAddr b c (faLocal r.addr) (reqLen r.op) := by
  simp only [judge, hopen, hjob, hgen, Nat.lt_irrefl, Bool.false_eq_true, if_false]

end

section
variable {c l n : Nat}

theorem judgeAddr_unmapped (hfirst : ∀ key, localWhere b c l ≠ .mem key) : judgeAddr b c l n = .refuse 4 := by
  unfold judgeAddr
  extract_lets last
  split
  next hmem _ => exact absurd hmem (hfirst _)
  next => rfl

variable {key last : Nat} (hfirst : localWhere b c l = .mem key)
  (hlast : localWhere b c (if n = 0 then l else l + n - 1) = .mem last)
include hfirst hlast

theorem judgeAddr_window {t off : Nat} (hspace : spaceOf l = .window t off) : judgeAddr b c l n =
    if (tileHw b t).faulted then .refuse 5 else if b.running = some c then .perform c key else .hold := by
  simp only [judgeAddr, hfirst, hlast, hspace]

theorem judgeAddr_memory (hspace : ∀ t off, spaceOf l ≠ .window t off) : judgeAddr b c l n = .perform c key := by
  simp only [judgeAddr, hfirst, hlast]

end

/-- Settles O28: each check is reached where those before it pass, and the address is judged last. -/
theorem requestsJudgedInOrder : Obligations.RequestsJudgedInOrder := by
  refine fun b r => ⟨judge_fenced, judge_noContext, fun c hopen hjob => ⟨judge_old hopen hjob, judge_early hopen hjob,
    fun hgen hfirst => ?_, fun key last hgen hfirst hlast => ⟨fun t off hspace => ?_, fun hspace => ?_⟩⟩⟩
  · exact (judge_current hopen hjob hgen).trans (judgeAddr_unmapped hfirst)
  · rw [(judge_current hopen hjob hgen).trans (judgeAddr_window hfirst hlast hspace)]
    exact ⟨fun hfaulted => if_pos hfaulted, fun hsound hidle => by rw [hsound, if_neg hidle]; rfl,
      fun hsound hruns => by rw [hsound, if_pos hruns]; rfl⟩
  · exact (judge_current hopen hjob hgen).trans (judgeAddr_memory hfirst hlast hspace)

/-! ### Requests taken -/

/-- A request of a job that this module may take is judged, and what waited goes on. -/
theorem requestArrival_job (harrives : arrives b r = true) (hjob : jobOf r.epoch ≠ 0) :
    requestArrival r b = settleAll (targetTake b r) := by
  simp only [requestArrival, requestTake, harrives, Bool.true_or, if_true, if_neg hjob]

theorem targetTake_refused {st : Nat} (hjudge : judge b r = .refuse st) :
    targetTake b r = respond { b with fab := countRefused b.fab st } r st [] := by
  simp only [targetTake, hjudge]

theorem targetTake_held (hjudge : judge b r = .hold) :
    targetTake b r = { b with fab := { b.fab with held := b.fab.held ++ [r] } } := by
  simp only [targetTake, hjudge]

theorem targetTake_performed {c key : Nat} (hjudge : judge b r = .perform c key) :
    let x := performReq b c key r.addr r.op
    targetTake b r = respond x.1 r x.2.1 x.2.2 := by
  simp only [targetTake, hjudge]

theorem exec_requestArrival {s : State} (hup : Up s) (harrives : arrives s.blk r = true) (hjob : jobOf r.epoch ≠ 0)
    {d : Block} (htake : targetTake s.blk r = d) : exec (.requestArrival r) s = .next (became s (settleAll d)) :=
  actUp_eq hup ((requestArrival_job harrives hjob).trans (congrArg settleAll htake))

end

/-! ### Responses -/

section
variable {b : Block} {r : Response}

/-- A response of the open request of its tag, in the epoch of the request and of its context, ends the request; STALE
fences the module (R324). -/
theorem responseArrive_current {q : OpenReq} (hopen : tlook b.fab.reqs r.tag.toNat = some q) (hepoch : r.epoch = q.req.epoch)
    (hctx : r.epoch = (ctxOf b q.ctx).epoch) :
    let d := endReq b r.tag.toNat r.status r.data
    responseArrive b r = if r.status = 1 then enterFenced d r.src r.epoch else d := by
  simp only [responseArrive, hopen, if_pos (And.intro hepoch hctx)]

theorem responseArrive_otherEpoch {q : OpenReq} (hopen : tlook b.fab.reqs r.tag.toNat = some q)
    (hepoch : r.epoch ≠ q.req.epoch) :
    responseArrive b r = { b with fab := { b.fab with late := satAdd b.fab.late 1 } } := by
  simp only [responseArrive, hopen, hepoch, false_and, if_false]

theorem responseArrive_unmatched (hnone : tlook b.fab.reqs r.tag.toNat = none) (hjob : jobOf r.epoch ≠ 0) :
    responseArrive b r = { b with fab := { b.fab with late := satAdd b.fab.late 1 } } := by
  simp only [responseArrive, hnone, if_neg hjob]

theorem exec_responseArrival {s : State} (hup : Up s) (hown : r.dst = s.blk.geo.own) {d : Block}
    (harrive : responseArrive s.blk r = d) : exec (.responseArrival r) s = .next (became s (settleAll d)) :=
  actUp_eq hup ((if_pos hown).trans (congrArg settleAll harrive))

end

/-- At the end of its quarantine a tag is free, and every port that waits for one may go on. -/
theorem quarantineEnd_some {b : Block} {t u : Nat} (htag : tlook b.fab.quarantine t = some u) : quarantineEnd t b =
    settleAll (pumpAll { b with fab := { b.fab with quarantine := tdel b.fab.quarantine t } }) := by
  simp only [quarantineEnd, htag]

/-- Settles O29: a request by how it is judged, a response by its tag and epoch, a tag by what holds it. -/
theorem requestsTakenAndEnded : Obligations.RequestsTakenAndEnded := by
  refine ⟨fun s r hup harrives hjob => ⟨fun st hjudge => ?_, fun hjudge => ?_, fun c key hjudge => ?_⟩,
    fun s hup => ⟨fun r hown => ⟨fun q hopen => ⟨fun hepoch hctx => ?_, fun hepoch => ?_⟩, fun hnone hjob => ?_⟩,
      fun t hopen => ?_, fun t u htag => ?_⟩⟩
  · exact exec_requestArrival hup harrives hjob (targetTake_refused hjudge)
  · exact exec_requestArrival hup harrives hjob (targetTake_held hjudge)
  · exact exec_requestArrival hup harrives hjob (targetTake_performed hjudge)
  · exact exec_responseArrival hup hown (responseArrive_current hopen hepoch hctx)
  · exact exec_responseArrival hup hown (responseArrive_otherEpoch hopen hepoch)
  · exact exec_responseArrival hup hown (responseArrive_unmatched hnone hjob)
  · exact actUp_eq hup (if_pos hopen)
  · exact actUp_eq hup (quarantineEnd_some htag)

end Sys2Proof.Machine
end

section
/-!
Flits that arrive on a usable link, and one that leaves the switch (R302 to R311).
-/
namespace Sys2Proof.Machine

/-! ### The receiver (R302 to R305, R309) -/

/-- What a flit's content opens to under the receiver's key and next sequence number; none where it is not authentic. -/
def flitPlain (l : Link) (x : List Byte) : Option (List Byte) :=
  Config.gcmOpenShort (l.rxKey.take 32) (l.rxKey.drop 32 ++ leBytes 8 l.rxNext) ((x.drop 284).take 4) (x.take 284)

/-- The link once a flit with control word `w` and `corr` corrected words is accepted: it acknowledges, returns credits
and is counted. -/
def flitAccepted (l : Link) (w corr : Nat) : Link :=
  let l1 := ackFirst l (acceptedOf l (w / 2 ^ 16 % 4096))
  let n := bump16 l.rx l.rxLow
  { l1 with
    corr := satAdd l1.corr corr, rxNext := l.rxNext + 1, nak := false, ackOwed := l1.ackOwed + 1, rx := n.1,
    rxLow := n.2, credits := addAt l1.credits (w / 2 ^ 14 % 4) (w / 2 ^ 10 % 16) }

section
variable {b : Block} {k : Nat} (husable : linkUsable b k = true)
include husable

section
variable {lanes : List (List (BitVec 2))}

theorem flitReceive_uncorrectable
    (hbad : decodeWords (fromWire ((linkOf b k).st == 8) (linkOf b k).spared lanes) = none) :
    flitReceive k lanes b = if (linkOf b k).nak then b else
      startNak (setLink b k { linkOf b k with uncorr := satAdd (linkOf b k).uncorr 1 }) k := by
  simp only [flitReceive, husable, hbad, Bool.not_true, Bool.false_eq_true, if_false]

variable {x : List Byte} {corr : Nat}
  (hwhole : decodeWords (fromWire ((linkOf b k).st == 8) (linkOf b k).spared lanes) = some (x, corr))
include hwhole

theorem flitReceive_unauthentic (hplain : flitPlain (linkOf b k) x = none) :
    flitReceive k lanes b = if (linkOf b k).nak then b else
      startNak (setLink b k { linkOf b k with authfail := satAdd (linkOf b k).authfail 1 }) k := by
  rw [flitPlain] at hplain
  simp only [flitReceive, husable, hwhole, hplain, Bool.not_true, Bool.false_eq_true, if_false]

/-- An authentic flit is accepted and delivered, and what waits is sent. -/
theorem flitReceive_authentic {content : List Byte} (hplain : flitPlain (linkOf b k) x = some content) :
    let w := leNat ((x.drop 284).take 4)
    flitReceive k lanes b = settleAll (settleLink (deliver (setLink b k (flitAccepted (linkOf b k) w corr)) k
      (w / 2 ^ 8 % 4) (readFlit content) (w % 256 + 1)) k) := by
  rw [flitPlain] at hplain
  simp only [flitReceive, husable, hwhole, hplain, flitAccepted, Bool.not_true, Bool.false_eq_true, if_false]

end

/-! ### Link-control flits (R308) and the switch (R311) -/

/-- A link-control flit is the next of the sequence and does what its fields say. -/
theorem linkControlFlit_usable (ack : Nat) (nak : Option Nat) (flags : Nat) (credits : List Nat) :
    let l := linkOf b k
    let n := bump16 l.rx l.rxLow
    linkControlFlit k ack nak flags credits b = applyControl (setLink b k { l with
      rxNext := l.rxNext + 1, nak := false, ackOwed := l.ackOwed + 1, rx := n.1, rxLow := n.2 }) k ack nak flags credits :=
  if_pos husable

end

/-- A flit discarded by the switch leaves the queue and gives its place back. -/
theorem switchDiscard_queued {b : Block} {k j : Nat} {e : Queued} (hqueued : (linkOf b k).queue[j]? = some e) :
    let l := linkOf b k
    switchDiscard k j b =
      leaveBuffer (setLink b k { l with queue := l.queue.eraseIdx j, discard := satAdd l.discard 1 }) e := by
  simp only [switchDiscard, hqueued]

/-- Settles O30: an arrived flit by whether its words decode and it is authentic. -/
theorem flitsReceived : Obligations.FlitsReceived := by
  refine fun s k hup husable => ⟨fun lanes hbad => ?_, fun lanes x corr hwhole => ⟨fun hplain => ?_,
    fun content hplain => ?_⟩, fun ack nak flags credits => ?_, ?_, fun j e hqueued => ?_⟩
  · exact actUp_eq hup (flitReceive_uncorrectable husable hbad)
  · exact actUp_eq hup (flitReceive_unauthentic husable hwhole hplain)
  · exact actUp_eq hup (flitReceive_authentic husable hwhole hplain)
  · exact actUp_eq hup (linkControlFlit_usable husable _ _ _ _)
  · exact actUp_eq hup rfl
  · exact actUp_eq hup (switchDiscard_queued hqueued)

end Sys2Proof.Machine
end

section
/-!
The training of a link, row by row (R310, R312, R313, R315), its width (R316), and a phase that is due (R349, R359).
-/
namespace Sys2Proof.Machine

section
variable {b : Block} {k : Nat}

/-! ### Signal -/

/-- With signal on eight lanes at both ends a training begins, which agrees new keys; otherwise the link stays in DETECT. -/
theorem linkDetect_enabled (hst : (linkOf b k).st = 0 ∨ (linkOf b k).st = 1) (henabled : (linkOf b k).disable = false)
    (lanes : LinkSignal) : linkDetect k lanes b =
      if 8 ≤ popcount 9 lanes.here.toNat ∧ 8 ≤ popcount 9 lanes.there.toNat then
        setLinkSt (setLink b k { linkOf b k with keyed := false }) k 2
      else setLinkSt b k 1 :=
  if_pos ⟨hst, henabled⟩

/-! ### TEST (R315) -/

/-- The data lanes that fail the test. -/
def failedLanes (errs : List Nat) : List Nat := (List.range 8).filter fun j => decide (2148 ≤ errs.getD j 0)

theorem failedLanes_eq_nil {errs : List Nat} (hpass : ∀ j < 8, errs.getD j 0 < 2148) : failedLanes errs = [] := by
  simpa [failedLanes] using hpass

theorem failedLanes_eq_singleton {errs : List Nat} {j : Nat} (hj : j < 8) (hfail : 2148 ≤ errs.getD j 0)
    (hothers : ∀ i < 8, i ≠ j → errs.getD i 0 < 2148) : failedLanes errs = [j] := by
  have hfails : ∀ i ∈ List.range 8, decide (2148 ≤ errs.getD i 0) = (i == j) := fun i hi => by
    by_cases hij : i = j
    · simp only [hij, beq_self_eq_true, decide_eq_true hfail]
    · rw [beq_false_of_ne hij, decide_eq_false (hothers i (List.mem_range.mp hi) hij).not_ge]
  rw [failedLanes, List.filter_congr hfails, List.filter_beq,
    List.count_eq_one_of_mem List.nodup_range (List.mem_range.mpr hj), List.replicate_one]

theorem linkTest_passed (hst : (linkOf b k).st = 3) {errs : List Nat} (hnone : failedLanes errs = []) :
    linkTest k errs b = setLinkSt (setLink b k { linkOf b k with spared := 15 }) k 4 := by
  rw [failedLanes] at hnone
  simp only [linkTest, hst, hnone, if_true]

/-- The spare, good itself, serves for the one lane that fails. -/
theorem linkTest_spared (hst : (linkOf b k).st = 3) {errs : List Nat} {j : Nat} (hone : failedLanes errs = [j])
    (hspare : errs.getD 8 0 < 2148) :
    linkTest k errs b = setLinkSt (setLink b k { linkOf b k with spared := BitVec.ofNat 4 j }) k 4 := by
  rw [failedLanes] at hone
  simp only [linkTest, hst, hone, hspare, if_true]

/-! ### IDENT (R312) -/

/-- The link once it has heard the other end: keys and unacknowledged flits are kept for the same end only. -/
def identLink (l : Link) (peer : BitVec 15) (index : BitVec 2) : Link :=
  let same := l.peer == peer && l.peerIdx == index
  { l with peer := peer, peerIdx := index, keyed := l.keyed && same, replay := if same then l.replay else [] }

section
variable (hst : (linkOf b k).st = 5) {peer : BitVec 15} {coord : U32} {dir : BitVec 3} {index : BitVec 2}
include hst

/-- IDENT by its three outcomes. -/
theorem linkIdent_eq : linkIdent k peer coord dir.toNat index.toNat b =
    let l := linkOf b k
    let d := setLink b k (identLink l peer index)
    if identOk b k peer coord dir.toNat index.toNat then
      if l.keyed && (l.peer == peer && l.peerIdx == index) && !l.rekey then linkToUp d k else setLinkSt d k 6
    else setLinkSt d k 10 := by
  have hindex : ((linkOf b k).peerIdx.toNat == index.toNat) = ((linkOf b k).peerIdx == index) := by
    rw [Bool.eq_iff_iff, beq_iff_eq, beq_iff_eq, BitVec.toNat_inj]
  simp only [linkIdent, hst, if_true, hindex, BitVec.ofNat_toNat, BitVec.setWidth_eq, identLink]

theorem linkIdent_miscabled (hok : identOk b k peer coord dir.toNat index.toNat = false) :
    linkIdent k peer coord dir.toNat index.toNat b = setLinkSt (setLink b k (identLink (linkOf b k) peer index)) k 10 := by
  simp only [linkIdent_eq hst, hok, Bool.false_eq_true, if_false]

variable (hok : identOk b k peer coord dir.toNat index.toNat = true)
include hok

theorem linkIdent_needsKey (hkey : (linkOf b k).keyed = false ∨
      ((linkOf b k).peer == peer && (linkOf b k).peerIdx == index) = false ∨ (linkOf b k).rekey = true) :
    linkIdent k peer coord dir.toNat index.toNat b = setLinkSt (setLink b k (identLink (linkOf b k) peer index)) k 6 := by
  obtain hnew | hother | hdue := hkey
  · simp only [linkIdent_eq hst, hok, hnew, Bool.false_and, Bool.false_eq_true, if_true, if_false]
  · simp only [linkIdent_eq hst, hok, hother, Bool.and_false, Bool.false_and, Bool.false_eq_true, if_true, if_false]
  · simp only [linkIdent_eq hst, hok, hdue, Bool.not_true, Bool.and_false, Bool.false_eq_true, if_true, if_false]

theorem linkIdent_keepsKey (hkeyed : (linkOf b k).keyed = true)
    (hsame : ((linkOf b k).peer == peer && (linkOf b k).peerIdx == index) = true) (hrekey : (linkOf b k).rekey = false) :
    linkIdent k peer coord dir.toNat index.toNat b = linkToUp (setLink b k (identLink (linkOf b k) peer index)) k := by
  simp only [linkIdent_eq hst, hok, hkeyed, hsame, hrekey, Bool.not_false, Bool.and_self, if_true]

end

/-! ### Training again -/

theorem linkRetrain_lostSignal (husable : linkUsable b k = true) : linkRetrain k 1 b = retrain b k := by
  simp [linkRetrain, husable]

theorem linkRetrain_replayed (husable : linkUsable b k = true) (hreplays : 8 ≤ (linkOf b k).replays) :
    linkRetrain k 0 b = retrain b k := by
  simp [linkRetrain, husable, hreplays]

theorem linkRetrain_failed (hst : (linkOf b k).st = 2 ∨ (linkOf b k).st = 3 ∨ (linkOf b k).st = 4) :
    linkRetrain k 2 b = failLink b k := by
  have htraining : 2 ≤ (linkOf b k).st.toNat ∧ (linkOf b k).st.toNat ≤ 4 := by
    obtain h | h | h := hst <;> rw [h] <;> decide
  simp only [linkRetrain, if_pos htraining, OfNat.ofNat_ne_zero, OfNat.ofNat_ne_one, if_false]

/-! ### Width (R316) -/

theorem linkNarrow_idle (hst : (linkOf b k).st = 7) (hnarrow : (linkOf b k).narrowEn = true)
    (hidle : (linkOf b k).queue = []) : linkNarrow k b = sendControl b k 2 :=
  if_pos ⟨hst, hnarrow, List.isEmpty_iff.mpr hidle⟩

theorem linkWiden_waiting (hst : (linkOf b k).st = 8) (hwaiting : (linkOf b k).queue ≠ []) :
    linkWiden k b = drainLink (setLinkSt (sendControl b k 8) k 7) k :=
  if_pos ⟨hst, List.isEmpty_eq_false_iff.mpr hwaiting⟩

end

/-! ### Phase remap (R349) -/

section
variable {b : Block} (hremap : b.geo.remap = true) (hphases : b.torus.phases ≠ [])
  (hdue : remapValue b % b.torus.phases.length ≠ b.house.phase.toNat)
include hremap hphases hdue

/-- Until the fabric is quiet the ports are held. -/
theorem remapRedraw_busy (hbusy : switchQuiet b = false) :
    remapRedraw b = { b with fab := { b.fab with portsHeld := true } } := by
  have hchange := And.intro hremap (And.intro (mt List.length_eq_zero_iff.mp hphases) hdue)
  simp only [remapRedraw, if_pos hchange, hbusy, Bool.false_eq_true, if_false]

/-- Then the phase changes, and the ports go on unless a PREPARE holds them (R359). -/
theorem remapRedraw_quiet (hquiet : switchQuiet b = true) :
    let v := remapValue b % b.torus.phases.length
    let d := applyPhase { b with house := { b.house with
      phase := BitVec.ofNat 3 v, remaps := satAdd b.house.remaps 1 } } v
    remapRedraw b = settleAll (pumpAll { d with fab := { d.fab with portsHeld := d.house.prepare.isSome } }) := by
  have hchange := And.intro hremap (And.intro (mt List.length_eq_zero_iff.mp hphases) hdue)
  simp only [remapRedraw, if_pos hchange, hquiet, if_true]

end

/-- Settles O31: each row from the state that it waits for, TEST by the lanes that fail, IDENT by the identity and the
keys held. -/
theorem linkTrainingAndWidth : Obligations.LinkTrainingAndWidth := by
  refine ⟨fun s k hup => ⟨fun lanes hst henabled => ?_, fun hst => actUp_eq hup (if_pos hst),
      fun errs hst => ⟨fun hpass => ?_, fun j hj hfail hothers hspare => ?_⟩, fun hst => actUp_eq hup (if_pos hst),
      fun peer coord dir index hst => ⟨fun hok => ?_, fun hok hkey => ?_, fun hok hkeyed hsame hrekey => ?_⟩,
      fun husable => ⟨?_, fun hreplays => ?_, ?_⟩, fun hst => ?_⟩,
    fun s k hup => ⟨fun hst hnarrow hidle => ?_, fun hst hwaiting => ?_,
      fun hremap hphases hdue => ⟨fun hbusy => ?_, fun hquiet => ?_⟩⟩⟩
  · exact (actUp_eq hup (linkDetect_enabled hst henabled lanes)).trans (congrArg _ (apply_ite (became s) _ _ _))
  · exact actUp_eq hup (linkTest_passed hst (failedLanes_eq_nil hpass))
  · exact actUp_eq hup (linkTest_spared hst (failedLanes_eq_singleton hj hfail hothers) hspare)
  · exact actUp_eq hup (linkIdent_miscabled hst hok)
  · exact actUp_eq hup (linkIdent_needsKey hst hok hkey)
  · exact actUp_eq hup (linkIdent_keepsKey hst hok hkeyed hsame hrekey)
  · exact actUp_eq hup (linkRetrain_lostSignal husable)
  · exact actUp_eq hup (linkRetrain_replayed husable hreplays)
  · exact actUp_eq hup (if_pos husable)
  · exact actUp_eq hup (linkRetrain_failed hst)
  · exact actUp_eq hup (linkNarrow_idle hst hnarrow hidle)
  · exact actUp_eq hup (linkWiden_waiting hst hwaiting)
  · exact actUp_eq hup (remapRedraw_busy hremap hphases hdue hbusy)
  · exact actUp_eq hup (remapRedraw_quiet hremap hphases hdue hquiet)

end Sys2Proof.Machine
end

section
/-!
The control and test bits of links and of the host port (R325, R417, R436, R494, R496, R512, R513).
-/
namespace Sys2Proof.Machine

/-! ### Control bits (R325, R436) -/

section
variable (b : Block) (n k : Nat) (x : Bool)

theorem plainWrite_linkDisable : Wr.block (plainWrite b n 8 (bitWrite 0 x) (.link k)) = linkDisable k x b := by
  obtain ⟨h0, h1, h2⟩ := maskBit_bitWrite_0 x
  simp [plainWrite, Wr.block, onBit, onSet, h0, h1, h2]

theorem plainWrite_linkRetrain : Wr.block (plainWrite b n 8 (bitWrite 1 true) (.link k)) = linkRetrainCmd k b := by
  obtain ⟨h0, h1, h2⟩ := maskBit_bitWrite_1 true
  simp [plainWrite, Wr.block, onBit, onSet, h0, h1, h2]

theorem plainWrite_linkNarrowEn : Wr.block (plainWrite b n 8 (bitWrite 2 x) (.link k)) = linkNarrowEn k x b := by
  obtain ⟨h0, h1, h2⟩ := maskBit_bitWrite_2 x
  simp [plainWrite, Wr.block, onBit, onSet, h0, h1, h2]

theorem plainWrite_hpDisable : Wr.block (plainWrite b n 4 (bitWrite 0 x) .hostPort) = hpDisable x b := by
  obtain ⟨h0, h1, -⟩ := maskBit_bitWrite_0 x
  simp [plainWrite, Wr.block, onBit, h0, h1]

theorem plainWrite_hpForce : Wr.block (plainWrite b n 4 (bitWrite 1 x) .hostPort) = hpForce x b := by
  obtain ⟨h0, h1, -⟩ := maskBit_bitWrite_1 x
  simp [plainWrite, Wr.block, onBit, h0, h1]

/-- A link is held down; one that is so already only keeps the bit. -/
theorem linkDisable_true : let held := setLink b k { linkOf b k with disable := true }
    linkDisable k true b = if (linkOf b k).st = 11 then held else dropLink held k 11 := by
  simp only [linkDisable, linkOf_setLink_self, if_true]

/-- A link that was held down trains again. -/
theorem linkDisable_false : let freed := setLink b k { linkOf b k with disable := false }
    linkDisable k false b = if (linkOf b k).st = 11 then setLinkSt freed k 1 else freed := by
  simp only [linkDisable, linkOf_setLink_self, Bool.false_eq_true, if_false]

end

/-! ### The data of a masked write (R441) -/

theorem clampTo_of_le {hi x : Nat} (hx : x ≤ hi) : clampTo 0 hi x = (x, 0) := by
  simp only [clampTo, Nat.not_lt_zero, if_false, if_neg hx.not_gt]

/-- A masked write of all of the low `w` bits. -/
def maskedWrite {w : Nat} (x : BitVec w) : U32 := ((BitVec.allOnes w).setWidth 32 <<< 16) ||| x.setWidth 32

section
variable {w : Nat} (hw : w ≤ 16) (x : BitVec w)
include hw

theorem maskedWrite_mask : maskedWrite x >>> 16 = (BitVec.allOnes w).setWidth 32 := by
  ext i hi
  have hhigh : x.getLsbD (16 + i) = false := BitVec.getLsbD_of_ge x _ (by omega)
  by_cases hin : i < w
  · have hroom : 16 + i < 32 := by omega
    simp [maskedWrite, BitVec.getElem_ushiftRight, hhigh, hin, hroom]
  · simp [maskedWrite, BitVec.getElem_ushiftRight, hhigh, hin]

/-- It leaves nothing of the old bits. -/
theorem setWidth_maskData_maskedWrite (old : U32) : (maskData old (maskedWrite x)).setWidth w = x := by
  ext i hi
  have hroom : i < 32 := by omega
  have hset : ((BitVec.allOnes w).setWidth 32).getLsbD i = true := by simpa [hi] using hroom
  have hbit : (maskedWrite x).getLsbD i = x.getLsbD i := by
    simp [maskedWrite, show i < 16 by omega, hroom]
  rw [maskData, maskedWrite_mask hw]
  simp only [BitVec.getElem_setWidth, BitVec.getLsbD_or, BitVec.getLsbD_and, BitVec.getLsbD_not, hset, hbit, Bool.not_true,
    Bool.and_false, Bool.and_true, Bool.false_or, BitVec.getLsbD_eq_getElem hi]

end

/-- A write of bit 14 alone leaves the bits below it. -/
theorem setWidth_maskData_bitWrite (old : U32) :
    (maskData old (bitWrite 14 true)).setWidth 14 = old.setWidth 14 := by
  have hmask : bitWrite 14 true >>> 16 = 0x4000#32 := by decide
  have hbelow (i : Nat) (hi : i < 14) : (0x4000#32).getLsbD i = false := by interval_cases i <;> rfl
  ext i hi
  have hroom : i < 32 := by omega
  rw [maskData, hmask]
  simp only [BitVec.getElem_setWidth, BitVec.getLsbD_or, BitVec.getLsbD_and, BitVec.getLsbD_not, hbelow i hi, hroom,
    decide_true, Bool.not_false, Bool.and_true, Bool.and_false, Bool.or_false]

/-! ### LANE_TEST (R494, R512) -/

/-- The fields of LANE_TEST, from the lowest up: PATTERN, LOOP and LANES. -/
def laneFields (p : BitVec 3) (lp : BitVec 2) (ln : BitVec 9) : BitVec 14 :=
  BitVec.ofNat 14 (ln.toNat * 32 + lp.toNat * 8 + p.toNat)

section
variable (p : BitVec 3) (lp : BitVec 2) (ln : BitVec 9)

theorem toNat_laneFields : (laneFields p lp ln).toNat = ln.toNat * 32 + lp.toNat * 8 + p.toNat := by
  rw [laneFields, BitVec.toNat_ofNat, Nat.mod_eq_of_lt (by omega)]

theorem toNat_fld {w : Nat} (x : BitVec w) {i : Nat} (hw : w + i ≤ 32) : (fld x i).toNat = x.toNat <<< i := by
  have hx : x.toNat <<< i < 2 ^ 32 :=
    calc x.toNat <<< i = x.toNat * 2 ^ i := Nat.shiftLeft_eq _ _
      _ < 2 ^ w * 2 ^ i := Nat.mul_lt_mul_of_pos_right x.isLt (Nat.two_pow_pos i)
      _ = 2 ^ (w + i) := (pow_add 2 w i).symm
      _ ≤ 2 ^ 32 := Nat.pow_le_pow_right (by decide) hw
  rw [fld, BitVec.toNat_shiftLeft, BitVec.toNat_setWidth_of_le (by omega), Nat.mod_eq_of_lt hx]

/-- The fields lie side by side. -/
theorem fld_laneFields : fld p 0 ||| fld lp 3 ||| fld ln 5 = (laneFields p lp ln).setWidth 32 := by
  apply BitVec.eq_of_toNat_eq
  rw [BitVec.toNat_setWidth_of_le (by decide), toNat_laneFields, BitVec.toNat_or, BitVec.toNat_or,
    toNat_fld p (by decide), toNat_fld lp (by decide), toNat_fld ln (by decide), Nat.shiftLeft_zero,
    Nat.or_comm p.toNat, ← Nat.shiftLeft_add_eq_or_of_lt p.isLt, Nat.or_comm,
    ← Nat.shiftLeft_add_eq_or_of_lt (by rw [Nat.shiftLeft_eq]; omega), Nat.shiftLeft_eq, Nat.shiftLeft_eq, Nat.add_assoc]

theorem laneTestWord_eq : laneTestWord p lp ln = maskedWrite (laneFields p lp ln) := by
  rw [maskedWrite, ← fld_laneFields, ← BitVec.or_assoc, ← BitVec.or_assoc]
  rfl

variable {p lp ln} {d : U32} (hd : d.setWidth 14 = laneFields p lp ln)
include hd

/-- The three fields of a word, in the order that LANE_TEST reads them. -/
theorem fields_of_setWidth : d.toNat % 8 = p.toNat ∧ d.toNat / 8 % 4 = lp.toNat ∧ d.extractLsb' 5 9 = ln := by
  have hnat : d.toNat % 2 ^ 14 = ln.toNat * 32 + lp.toNat * 8 + p.toNat := by
    rw [← toNat_laneFields, ← hd, BitVec.toNat_setWidth]
  refine ⟨by omega, by omega, BitVec.eq_of_toNat_eq ?_⟩
  rw [BitVec.extractLsb'_toNat, Nat.shiftRight_eq_div_pow]
  omega

end

/-- In the states where a lane test may be set up (R494). -/
theorem laneIdle_iff {b : Block} {k : Nat} :
    laneIdle b k = true ↔ (linkOf b k).st = 9 ∨ (linkOf b k).st = 10 ∨ (linkOf b k).st = 11 := by
  simp [laneIdle, or_assoc]

theorem laneWrite_busy {b : Block} {k : Nat} (hbusy : laneIdle b k = false) (v : U32) :
    laneWrite k v b = ignored b (0x80 + k) := by
  simp only [laneWrite, hbusy, Bool.false_eq_true, if_false]

section
variable {b : Block} {k : Nat} (hidle : laneIdle b k = true)
include hidle

/-- A pattern of defined codes is taken, and clears the counts. -/
theorem laneWrite_pattern {p : BitVec 3} {lp : BitVec 2} (hp : p.toNat ≤ 4) (hlp : lp.toNat ≤ 2) (ln : BitVec 9) :
    laneWrite k (laneTestWord p lp ln) b = (lanePattern k p lp ln b, 0) := by
  have hw : (14 : Nat) ≤ 16 := by decide
  obtain ⟨hpat, hloop, hlanes⟩ := fields_of_setWidth (setWidth_maskData_maskedWrite hw (laneFields p lp ln)
    (fld (linkOf b k).pattern 0 ||| fld (linkOf b k).loop 3 ||| fld (linkOf b k).lanes 5))
  have htouched : ((maskedWrite (laneFields p lp ln) >>> 16).toNat % 8 != 0) = true := by
    rw [maskedWrite_mask hw]
    decide
  have hinject : maskBit (maskedWrite (laneFields p lp ln)) 14 = none := by
    simp [maskBit, maskedWrite]
  simp only [laneWrite, hidle, laneTestWord_eq, hpat, hloop, hlanes, htouched, clampTo_of_le hp, clampTo_of_le hlp, onSet,
    hinject, counted, blkClamp, BitVec.ofNat_toNat, BitVec.setWidth_eq, if_true, Nat.add_zero]
  rfl

end

/-! ### Injected errors (R512) -/

/-- One more error on lane `j`, where it is among those that `p` names. -/
def laneError (p : Nat → Bool) (t : Tbl U32) (j : Nat) : Tbl U32 :=
  if p j then tput t 0 j (satAdd (tget t 0 j) 1) else t

theorem tget_laneError (p : Nat → Bool) (t : Tbl U32) (i j : Nat) :
    tget (laneError p t i) 0 j = if i = j ∧ p j = true then satAdd (tget t 0 j) 1 else tget t 0 j := by
  by_cases hij : i = j
  · subst hij
    by_cases hp : p i = true <;> simp [laneError, hp]
  · by_cases hp : p i = true
    · simp [laneError, hp, hij, tget_tput_other _ _ _ _ _ _ (Ne.symm hij)]
    · simp [laneError, hp, hij]

/-- Over lanes that are all different, each counts its own error. -/
theorem tget_foldl_laneError (p : Nat → Bool) {l : List Nat} (hdiff : l.Nodup) (t : Tbl U32) (j : Nat) :
    tget (l.foldl (laneError p) t) 0 j = if j ∈ l ∧ p j = true then satAdd (tget t 0 j) 1 else tget t 0 j := by
  induction l generalizing t with
  | nil => simp
  | cons i l ih =>
    obtain ⟨hnew, hrest⟩ := List.nodup_cons.mp hdiff
    rw [List.foldl_cons, ih hrest, tget_laneError]
    by_cases hij : i = j
    · subst hij
      simp [hnew]
    · simp [hij, Ne.symm hij]

section
variable {b : Block} {k : Nat} (hidle : laneIdle b k = true)
include hidle

/-- With defined codes in force an injection leaves the fields as they are. -/
theorem laneWrite_inject (hp : (linkOf b k).pattern.toNat ≤ 4) (hlp : (linkOf b k).loop.toNat ≤ 2) :
    laneWrite k (bitWrite 14 true) b = (laneInject k (setLink b k (linkOf b k)), 0) := by
  obtain ⟨hpat, hloop, hlanes⟩ := fields_of_setWidth ((setWidth_maskData_bitWrite _).trans
    ((congrArg (BitVec.setWidth 14) (fld_laneFields (linkOf b k).pattern (linkOf b k).loop (linkOf b k).lanes)).trans
      (BitVec.setWidth_setWidth_of_le _ (by decide))))
  have htouched : ((bitWrite 14 true >>> 16).toNat % 8 != 0) = false := by decide
  have hinject : maskBit (bitWrite 14 true) 14 = some true := by decide
  simp only [laneWrite, hidle, hpat, hloop, hlanes, htouched, clampTo_of_le hp, clampTo_of_le hlp, onSet,
    hinject, counted, blkClamp, BitVec.ofNat_toNat, BitVec.setWidth_eq, if_true, Nat.add_zero, Bool.false_eq_true, if_false]

/-- On a link in near loopback under a PRBS pattern, every locked lane that is tested sees one error. -/
theorem laneWrite_prbs (hloop : (linkOf b k).loop = 1) (hlo : 1 ≤ (linkOf b k).pattern.toNat)
    (hhi : (linkOf b k).pattern.toNat ≤ 3) : let l := linkOf b k
    laneWrite k (bitWrite 14 true) b = (setLink (setLink b k l) k { l with
      errs := (List.range 9).foldl (laneError fun j => l.lanes.getLsbD j && l.locked.getLsbD j) l.errs }, 0) := by
  rw [laneWrite_inject hidle (by omega) (by rw [hloop]; decide)]
  simp only [laneInject, linkOf_setLink_self, hloop, hlo, hhi, and_self, if_true]
  rfl

end

/-! ### The link's rows -/

section
variable {s : State} (hup : Up s) {k : Fin 32} (hpair : (blkOf s.blk (0x80 + k.val)).pair = none)
include hup hpair

theorem exec_linkCtrlDisable (x : Bool) :
    exec (.linkCtrlDisable k x) s = .next (became s (linkDisable k.val x s.blk)) :=
  actUp_regWrite_plain hup (blkAt_link s.blk k) nofun hpair (by decide) rfl rfl (plainWrite_linkDisable ..)

theorem exec_linkCtrlRetrain : exec (.linkCtrlRetrain k) s = .next (became s (linkRetrainCmd k.val s.blk)) :=
  actUp_regWrite_plain hup (blkAt_link s.blk k) nofun hpair (by decide) rfl rfl (plainWrite_linkRetrain ..)

theorem exec_linkCtrlNarrowEn (x : Bool) :
    exec (.linkCtrlNarrowEn k x) s = .next (became s (linkNarrowEn k.val x s.blk)) :=
  actUp_regWrite_plain hup (blkAt_link s.blk k) nofun hpair (by decide) rfl rfl (plainWrite_linkNarrowEn ..)

theorem exec_laneTestPattern (p : BitVec 3) (lp : BitVec 2) (ln : BitVec 9) : exec (.laneTestPattern k p lp ln) s =
    .next (became s (Wr.block (laneWrite k.val (laneTestWord p lp ln) s.blk))) :=
  actUp_regWrite_plain hup (blkAt_link s.blk k) nofun hpair (by decide) rfl rfl rfl

theorem exec_laneTestInject : exec (.laneTestInject k) s =
    .next (became s (Wr.block (laneWrite k.val (bitWrite 14 true) s.blk))) :=
  actUp_regWrite_plain hup (blkAt_link s.blk k) nofun hpair (by decide) rfl rfl rfl

end

/-! ### HP_TEST (R496, R513) -/

theorem hpTestWord_eq (v : BitVec 12) : hpTestWord v = maskedWrite v := rfl

theorem hpTestWrite_enabled {b : Block} (henabled : b.hp.disable = false) (v : U32) :
    hpTestWrite v b = ignored b 0xC0 := by
  simp only [hpTestWrite, henabled, Bool.false_eq_true, if_false]

/-- PATTERN and the bits above it, within the low twelve, are those twelve bits. -/
theorem hpTest_fields {d : U32} {v : BitVec 12} (hd : d.setWidth 12 = v) :
    ((d &&& 0xFF8) ||| BitVec.ofNat 32 (d.toNat % 8)).setWidth 16 = v.setWidth 16 := by
  have hmask : (0xFF8 : U32) = (BitVec.allOnes 9).setWidth 32 <<< 3 := by decide
  have hpat : BitVec.ofNat 32 (d.toNat % 8) = (d.setWidth 3).setWidth 32 := BitVec.eq_of_toNat_eq (by simp)
  subst hd
  ext i hi
  rw [hmask, hpat]
  simp only [BitVec.getElem_setWidth, BitVec.getLsbD_or, BitVec.getLsbD_and, BitVec.getLsbD_shiftLeft, BitVec.getLsbD_setWidth,
    BitVec.getLsbD_allOnes]
  cases d.getLsbD i
  · simp
  · rw [Bool.eq_iff_iff]
    simp only [Bool.and_true, Bool.true_and, Bool.or_eq_true, Bool.and_eq_true, Bool.not_eq_true', decide_eq_true_eq,
      decide_eq_false_iff_not]
    omega

/-- While the port is disabled a defined pattern is taken, and clears the counts. -/
theorem hpTestWrite_disabled {b : Block} (hdisabled : b.hp.disable = true) {v : BitVec 12} (hv : v.toNat % 8 ≤ 4) :
    hpTestWrite (hpTestWord v) b = ({ b with hp := { b.hp with test := v.setWidth 16, testErr := [] } }, 0) := by
  have hw : (12 : Nat) ≤ 16 := by decide
  have hdata := setWidth_maskData_maskedWrite hw v (b.hp.test.setWidth 32)
  have hpat : (maskData (b.hp.test.setWidth 32) (maskedWrite v)).toNat % 8 = v.toNat % 8 := by
    have hnat := congrArg BitVec.toNat hdata
    rw [BitVec.toNat_setWidth] at hnat
    omega
  have htouched : ((maskedWrite v >>> 16).toNat % 8 != 0) = true := by
    rw [maskedWrite_mask hw]
    decide
  have hfields := hpTest_fields hdata
  rw [hpat] at hfields
  simp only [hpTestWrite, hdisabled, hpTestWord_eq, hpat, clampTo_of_le hv, hfields, htouched, counted, blkClamp, if_true]

section
variable {s : State} (hup : Up s) (hpair : (blkOf s.blk 0xC0).pair = none)
include hup hpair

theorem exec_hpCtrlDisable (x : Bool) : exec (.hpCtrlDisable x) s = .next (became s (hpDisable x s.blk)) :=
  actUp_regWrite_plain hup (blkAt_hostPort s.blk) nofun hpair (by decide) rfl rfl (plainWrite_hpDisable ..)

theorem exec_hpCtrlForce800 (x : Bool) : exec (.hpCtrlForce800 x) s = .next (became s (hpForce x s.blk)) :=
  actUp_regWrite_plain hup (blkAt_hostPort s.blk) nofun hpair (by decide) rfl rfl (plainWrite_hpForce ..)

theorem exec_hpTestPattern (v : BitVec 12) : exec (.hpTestPattern v) s =
    .next (became s (Wr.block (hpTestWrite (hpTestWord v) s.blk))) :=
  actUp_regWrite_plain hup (blkAt_hostPort s.blk) nofun hpair (by decide) rfl rfl rfl

end

/-- Settles O48: each row is a masked write of its block, LANE_TEST by whether the link is down, HP_TEST by whether the
port is disabled. -/
theorem linkAndPortControlRegisters : Obligations.LinkAndPortControlRegisters := by
  intro s hup b
  refine ⟨fun k hpair => ⟨?_, ?_, exec_linkCtrlRetrain hup hpair, exec_linkCtrlNarrowEn hup hpair, fun p lp ln hbusy => ?_,
      fun p lp ln hidle hp hlp => ?_, fun hidle hloop hlo hhi => ?_⟩,
    fun hpair => ⟨exec_hpCtrlDisable hup hpair, fun x => ?_, fun v => ⟨fun henabled => ?_, fun hdisabled hv => ?_⟩⟩⟩
  · rw [exec_linkCtrlDisable hup hpair, linkDisable_true]
  · rw [exec_linkCtrlDisable hup hpair, linkDisable_false]
  · have hignored := laneWrite_busy (Bool.eq_false_iff.mpr (mt laneIdle_iff.mp hbusy))
    rw [exec_laneTestPattern hup hpair, exec_laneTestInject hup hpair, hignored, hignored]
    exact ⟨rfl, rfl⟩
  · rw [exec_laneTestPattern hup hpair, laneWrite_pattern (laneIdle_iff.mpr hidle) hp hlp]
    rfl
  · refine ⟨_, exec_laneTestInject hup hpair, ?_⟩
    rw [laneWrite_prbs (laneIdle_iff.mpr hidle) hloop hlo hhi]
    refine ⟨fun j hj => ?_, fun j hj => ?_⟩
    · exact (linkOf_setLink_other _ _ _ _ hj).trans (linkOf_setLink_other _ _ _ _ hj)
    · rw [Wr.block, linkOf_setLink_self, tget_foldl_laneError _ List.nodup_range]
      simp [hj]
  · rw [exec_hpCtrlForce800 hup hpair]
    simp [hpForce, b]
  · rw [exec_hpTestPattern hup hpair, hpTestWrite_enabled henabled]
    rfl
  · rw [exec_hpTestPattern hup hpair, hpTestWrite_disabled hdisabled hv]
    rfl

end Sys2Proof.Machine
end

section
/-!
House beats and the generation (R353 to R355, R358, R359): the beat of a module, each message where its conditions hold,
and a READY that does not come.
-/
namespace Sys2Proof.Machine

/-! ### The beat and a house PUT (R353, R354) -/

section
variable {b : Block}

/-- Where a table is in force the module says what its role has to say, then repeats its fragments unless it is fenced. -/
theorem beatTimer_valid (htable : b.torus.valid = true) :
    let b1 := if b.house.isKeeper && !b.fab.fenced then keeperBeat b else memberBeat b
    beatTimer b = if b1.fab.fenced then b1 else (outboxTo b1).foldl sendFragment b1 :=
  if_pos htable

theorem houseArrival_own {r : Request} (hjob : jobOf r.epoch = 0) (hown : faModule r.addr = b.geo.own) :
    houseArrival r b = houseTake b r :=
  if_pos ⟨hjob, hown⟩

end

/-! ### Messages (R354, R355, R358, R359) -/

@[simp] theorem geoChange_house (b : Block) (f : Geo → Geo) : (geoChange b f).house = b.house := by
  rw [geoChange]
  split_ifs <;> rfl

section
variable {b b1 : Block} {m : Nat} {x : HouseMsg}

theorem beatEff_taken {m : BitVec 15} (htake : takeMsg b 1 m.toNat = (some x, b1)) :
    beatEff m.toNat b = if follows b1 m.toNat x then
      { geoChange b1 fun g => { g with keeper := m } with
        house := { b1.house with
          term := x.term, live := x.live, isKeeper := false, isFirst := false
          gone := b1.house.gone.filter (notShown b1 x) } }
    else b1 := by
  simp only [beatEff, htake, setHouse, geoChange_house, BitVec.ofNat_toNat, BitVec.setWidth_eq]

theorem aliveEff_taken (htake : takeMsg b 2 m = (some x, b1)) : aliveEff m b = b1 := by
  simp only [aliveEff, htake]

section
variable (hobeys : obeys b1 m = true) (hlater : genOf b1.torus.epoch < genOf x.epoch)
include hobeys hlater

/-- A PREPARE not seen before holds the ports, and a keeper passes it on. -/
theorem prepareEff_later (htake : takeMsg b 7 m = (some x, b1)) :
    let again := b1.house.prepare == some x.epoch
    let b2 := if again then b1 else holdPorts b1 x.epoch
    prepareEff m b = if b2.house.isKeeper && !again then
        tryReady (sendPrepare (setHouse b2 fun h => { h with raise := some (x.epoch, []) }) x.epoch (otherMembers b2))
      else tryReady b2 := by
  simp only [prepareEff, htake, hobeys, decide_eq_true hlater, Bool.and_self, if_true]

theorem commitEff_later (htake : takeMsg b 9 m = (some x, b1)) :
    let b2 := adoptEpoch b1 x.epoch
    commitEff m b = if b2.house.isKeeper then sendState (setHouse b2 fun h => { h with dead := [] }) 9 (otherMembers b2)
      else sendState b2 2 [m] := by
  simp only [commitEff, htake, hobeys, decide_eq_true hlater, Bool.and_self, if_true]

end

/-- A keeper collects the READY of a module that it waits for and has not heard. -/
theorem readyEff_awaited {e : U32} {heard : List Nat} (htake : takeMsg b 8 m = (some x, b1))
    (hkeeper : b1.house.isKeeper = true) (hraise : b1.house.raise = some (e, heard))
    (hwaits : (awaited b1).contains m = true) (hnew : heard.contains m = false) :
    readyEff m b = tryReady (setHouse b1 fun h => { h with raise := some (e, m :: heard) }) := by
  simp only [readyEff, htake, hkeeper, hraise, hwaits, hnew, Bool.not_false, Bool.and_self, if_true]

/-- One whose READY is missing when the time ends counts as gone. -/
theorem readyTimeout_awaited {e : U32} {heard : List Nat} (hkeeper : b.house.isKeeper = true)
    (hraise : b.house.raise = some (e, heard)) (hwaits : (awaited b).contains m = true)
    (hnew : heard.contains m = false) :
    readyTimeout m b = tryReady (setHouse b fun h => { h with gone := h.gone ++ [m] }) := by
  simp only [readyTimeout, hkeeper, hraise, hwaits, hnew, Bool.not_false, Bool.and_self, if_true]

end

/-- Settles O35: the beat, a house PUT, each message of a raise and a missing READY have their one effect. -/
theorem houseBeatsAndGenerations : Obligations.HouseBeatsAndGenerations :=
  ⟨fun _ => ⟨fun hup htable => actUp_eq hup (beatTimer_valid htable),
      fun _ hup hjob hown => actUp_eq hup (houseArrival_own hjob hown),
      fun _ _ _ hmsg => actUp_received hmsg beatEff_taken, fun _ _ _ hmsg => actUp_received hmsg aliveEff_taken⟩,
    fun _ _ => ⟨fun _ _ hmsg hobeys hlater => actUp_received hmsg (prepareEff_later hobeys hlater),
      fun _ _ _ _ hmsg hkeeper hraise hwaits hnew =>
        actUp_received hmsg fun htake => readyEff_awaited htake hkeeper hraise hwaits hnew,
      fun _ _ hmsg hobeys hlater => actUp_received hmsg (commitEff_later hobeys hlater),
      fun _ _ hup hkeeper hraise hwaits hnew => actUp_eq hup (readyTimeout_awaited hkeeper hraise hwaits hnew)⟩⟩

end Sys2Proof.Machine
end

section
/-!
Fragments and admission (R360, R435, R508): a fragment that is next in number, JOIN at the keeper, and ADMIT at the module
that asked.
-/
namespace Sys2Proof.Machine

section
variable {b b1 : Block} {m : BitVec 15} {x : HouseMsg}

/-! ### RELAY (R360, R435) -/

/-- The block once a fragment of a relayed frame is collected. -/
def relayNoted (b1 : Block) (m : Nat) (x : HouseMsg) : Block :=
  setHouse b1 fun h => markGot m x { h with relayIn := (takeFragment b1.house.relayIn m x).1 }

section
variable {second : Nat} (htake : takeMsg b 10 m.toNat = (some x, b1)) (hnext : isNext b1 m.toNat x = true)
include htake hnext

/-- A fragment that ends no unit is collected. -/
theorem relayEff_part (hpart : (takeFragment b1.house.relayIn m.toNat x).2 = none) :
    relayEff m.toNat second b = relayNoted b1 m.toNat x := by
  simp only [relayEff, htake, hnext, hpart, if_true]
  rfl

section
variable {u : List Byte} (hwhole : (takeFragment b1.house.relayIn m.toNat x).2 = some u)
include hwhole

/-- A member takes a whole host frame that its keeper relays. -/
theorem relayEff_member (hmember : (relayNoted b1 m.toNat x).house.isKeeper = false)
    (hkeeper : m = (relayNoted b1 m.toNat x).geo.keeper) (hheader : headerOk u = true) :
    relayEff m.toNat second b =
      transportTake (hpCount (relayNoted b1 m.toNat x) fun h => { h with sender := none }) u second := by
  unfold relayNoted at hmember hkeeper ⊢
  simp only [relayEff, htake, hnext, hwhole, hmember, if_pos (congrArg BitVec.toNat hkeeper), hheader,
    Bool.false_eq_true, if_true, if_false]

/-- A cabled keeper sends a member's whole frame on to the member's host. -/
theorem relayEff_keeper (hkeeper : (relayNoted b1 m.toNat x).house.isKeeper = true)
    (hcabled : cabled (relayNoted b1 m.toNat x) = true) :
    let b2 := relayNoted b1 m.toNat x
    let t := bump16 b2.hp.tx b2.hp.txLow
    relayEff m.toNat second b = { b2 with
      hp := { b2.hp with tx := t.1, txLow := t.2 }
      egress := b2.egress ++ [.clear (tlook b2.hp.relayed m.toNat) u] } := by
  unfold relayNoted at hkeeper hcabled ⊢
  simp only [relayEff, htake, hnext, hwhole, hkeeper, hcabled, if_true]

end
end

/-! ### SIG (R508) -/

/-- The block once a fragment of a signature record is collected. -/
def sigNoted (b1 : Block) (m : Nat) (x : HouseMsg) : Block :=
  setHouse b1 fun h => markGot m x { h with sigIn := (takeFragment b1.house.sigIn m x).1 }

section
variable (htake : takeMsg b 11 m.toNat = (some x, b1)) (hnext : isNext b1 m.toNat x = true)
include htake hnext

theorem sigEff_part (hpart : (takeFragment b1.house.sigIn m.toNat x).2 = none) :
    sigEff m.toNat b = sigNoted b1 m.toNat x := by
  simp only [sigEff, htake, hnext, hpart, ite_self, if_true]
  rfl

/-- A keeper holds a member's whole record. -/
theorem sigEff_whole {u : List Byte} {g : SigRec} (hwhole : (takeFragment b1.house.sigIn m.toNat x).2 = some u)
    (hkeeper : (sigNoted b1 m.toNat x).house.isKeeper = true) (hrec : readSig u = some g) :
    sigEff m.toNat b = holdRec (sigNoted b1 m.toNat x) g := by
  unfold sigNoted at hkeeper ⊢
  simp only [sigEff, htake, hnext, hwhole, hkeeper, hrec, if_true]

end

/-! ### JOIN and ADMIT (R360) -/

/-- A keeper queues a module of its house that has keyed every link to it. -/
theorem joinEff_keyed (htake : takeMsg b 12 m.toNat = (some x, b1)) (hkeeper : b1.house.isKeeper = true)
    (hhouse : houseOf b1 m.toNat = some (ownHouse b1)) (hnew : b1.house.joins.contains m.toNat = false)
    (hkeyed : keyedWith b1 m.toNat = true) :
    joinEff m.toNat b = setHouse b1 fun h => { h with joins := h.joins ++ [m.toNat] } := by
  simp only [joinEff, htake, hkeeper, hhouse, hnew, hkeyed, BEq.rfl, Bool.not_false, Bool.and_self, if_true]

/-- The contexts of an epoch's job that a fenced module holds. -/
def fencedJob (b : Block) (e : U32) : List Nat :=
  if b.fab.fenced then (b.ctxs.filter fun y => jobOf y.2.epoch == jobOf e).map Prod.fst else []

/-- The block at the epoch of its ADMIT, in service again. -/
def inService (b : Block) (e : U32) : Block :=
  { b with
    torus := { b.torus with epoch := e }, fab := { b.fab with fenced := false, portsHeld := false }
    house := { b.house with admitted := true, prepare := none, prepared := false } }

/-- A module that has attested takes the epoch of its keeper's ADMIT, and where it was fenced its contexts of the job end. -/
theorem admitEff_attested (htake : takeMsg b 13 m.toNat = (some x, b1)) (hkeeper : m = b1.geo.keeper)
    (hattested : b1.fab.fenced = false ∧ b1.house.admitted = true ∨ linksRekeyed b1 = true) :
    admitEff m.toNat b = inService ((fencedJob b1 x.epoch).foldl destroyCtx b1) x.epoch := by
  simp only [admitEff, htake, if_pos (And.intro (congrArg BitVec.toNat hkeeper) hattested)]
  rfl

end

/-- Settles O37: each fragment, JOIN and ADMIT where its conditions hold. -/
theorem fragmentsAndAdmission : Obligations.FragmentsAndAdmission :=
  fun _ _ =>
    ⟨fun _ _ _ hmsg hnext => ⟨fun hpart => actUp_received hmsg fun htake => relayEff_part htake hnext hpart,
        fun _ hwhole hmember hkeeper hheader =>
          actUp_received hmsg fun htake => relayEff_member htake hnext hwhole hmember hkeeper hheader,
        fun _ hwhole hkeeper hcabled =>
          actUp_received hmsg fun htake => relayEff_keeper htake hnext hwhole hkeeper hcabled⟩,
      fun _ _ hmsg hnext => ⟨fun hpart => actUp_received hmsg fun htake => sigEff_part htake hnext hpart,
        fun _ _ hwhole hkeeper hrec => actUp_received hmsg fun htake => sigEff_whole htake hnext hwhole hkeeper hrec⟩,
      fun _ _ hmsg hkeeper hhouse hnew hkeyed =>
        actUp_received hmsg fun htake => joinEff_keyed htake hkeeper hhouse hnew hkeyed,
      fun _ _ ⟨hup, htake⟩ hkeeper hattested => actUp_settled hup (admitEff_attested htake hkeeper hattested)⟩

end Sys2Proof.Machine
end

section
/-!
Fleet test runs and packages, sparing marks and torus tables (R329, R330, R425, R499 to R501): what the run of each command
gives where its conditions hold.
-/
namespace Sys2Proof.Machine

/-! ### Fleet tests (R499 to R501) -/

/-- What FLEET_TEST form 0 selects. -/
def fleetSel (h : Cmd) : RunSel where
  volt := par h 2 1
  clk := par h 3 1
  reps := (clampTo 1 65535 (par h 4 2)).1
  limit := (clampTo 1 3600000 (par h 8 4)).1
  regions := BitVec.ofNat 12 (par h 0x0C 2)
  buses := BitVec.ofNat 16 (par h 0x0E 2)
  links := BitVec.ofNat 32 (par h 0x10 4)
  patterns := BitVec.ofNat 64 (par h 0x18 8)

/-- What it clamps. -/
def fleetClamps (h : Cmd) : Nat := (clampTo 1 65535 (par h 4 2)).2 + (clampTo 1 3600000 (par h 8 4)).2

section
variable {h : Cmd} {b : Block}

/-- The package that FLEET_TEST names is there, as the model looks for it. -/
theorem pkgs_any (hpkg : ∃ p ∈ b.ft.pkgs, p.1 = par h 1 1) : (b.ft.pkgs.any fun p => p.1 == par h 1 1) = true := by
  simpa using hpkg

/-- A run of defined fields begins where no context is runnable, no run is in progress and the package is there. -/
theorem fleetRun_begins (hform : par h 0 1 = 0) (hvolt : par h 2 1 ≤ 2) (hclk : par h 3 1 ≤ 2)
    (hidle : runnableAny b = false) (hfree : b.ft.run = none)
    (hpkg : par h 1 1 = 0 ∨ ∃ p ∈ b.ft.pkgs, p.1 = par h 1 1) :
    fleetRun h b = (startRun ((linksOf (fleetSel h).links).foldl runLinkDown (hpClamp b (fleetClamps h)))
      (par h 1 1) 0 none (fleetSel h), { status := 0, detail := b.ft.runNo }) := by
  have hdefined : ¬ (par h 0 1 ≠ 0 ∨ 2 < par h 2 1 ∨ 2 < par h 3 1) := by omega
  have hfound : (par h 1 1 != 0 && !b.ft.pkgs.any fun p => p.1 == par h 1 1) = false := by
    rcases hpkg with hzero | hpkg
    · rw [hzero, bne_self_eq_false, Bool.false_and]
    · rw [pkgs_any hpkg, Bool.not_true, Bool.and_false]
  simp only [fleetRun, if_neg hdefined, hidle, hfree, hfound, Option.isSome_none, Bool.or_self,
    Bool.false_eq_true, if_false]
  rfl

end

/-! ### Sparing marks (R425) -/

/-- The block with the mark of a channel or a link kept once. -/
def sparingMarked (b : Block) (m : Nat) : Block :=
  { b with pw := { b.pw with marks := if b.pw.marks.contains m then b.pw.marks else b.pw.marks ++ [m] } }

section
variable {h : Cmd} {b : Block} (hpolicy : b.chip.policy.getLsbD 1 = false)
include hpolicy

theorem spareRun_tile (hkind : par h 0 1 = 0) :
    let t := clampTo 0 1151 (par h 2 2)
    spareRun h b = withClamps t.2 (done (setTileHw b t.1 { tileHw b t.1 with retire := true })) := by
  simp only [spareRun, hpolicy, hkind, Bool.false_eq_true, if_false, if_true]

theorem spareRun_channel (hkind : par h 0 1 = 1) :
    let k := clampTo 0 11 (par h 1 1)
    let ch := clampTo 0 127 (par h 2 2)
    spareRun h b = withClamps (k.2 + ch.2) (done (sparingMarked b (2 ^ 24 + k.1 * 2 ^ 16 + ch.1))) := by
  simp only [spareRun, hpolicy, hkind, Bool.false_eq_true, if_false, one_ne_zero, if_true]
  rfl

theorem spareRun_link (hkind : par h 0 1 = 2) :
    let l := clampTo 0 31 (par h 2 2)
    spareRun h b = withClamps l.2 (done (sparingMarked b (2 ^ 25 + l.1))) := by
  simp only [spareRun, hpolicy, hkind, Bool.false_eq_true, if_false, OfNat.ofNat_ne_zero, OfNat.ofNat_ne_one, if_true]
  rfl

end

/-! ### The commands -/

section
variable {s : State} (hup : Up s) {h : Cmd} {x : Session}
include hup

/-- A critical command that is accepted answers its run, given as the block and the answer. -/
theorem actUp_command_answers {op : Nat} {roles : List Role} {f : Block → Session → Run}
    (ha : Accepted s.blk op true roles h x) {d : Block} {a : Ans} (hr : f (afterCounter s.blk h) x = (d, a)) :
    actUp (command op true roles h f) s = .next (answered s op h d a) :=
  actUp_command_critical hup ha hr

theorem exec_fleetTestRun (ha : Accepted s.blk 0x0060 true operatorOnly h x) (hlen : h.params.length = 0x20) {d : Block}
    {a : Ans} (hrun : fleetRun h (afterCounter s.blk h) = (d, a)) :
    exec (.fleetTestRun h) s = .next (answered s 0x0060 h d a) :=
  actUp_command_answers hup ha ((sized_of_length hlen _ _).trans hrun)

/-- A package that is there is removed. -/
theorem exec_fleetTestRemove (ha : Accepted s.blk 0x0060 true operatorOnly h x) (hlen : h.params.length = 0x20)
    (hform : par h 0 1 = 1) (hpkg : ∃ p ∈ (afterCounter s.blk h).ft.pkgs, p.1 = par h 1 1) :
    let b := afterCounter s.blk h
    exec (.fleetTestRemove h) s = .next (answered s 0x0060 h
      { b with ft := { b.ft with pkgs := b.ft.pkgs.filter fun p => p.1 != par h 1 1 } } { status := 0 }) := by
  refine actUp_command_answers hup ha ((sized_of_length hlen _ _).trans ?_)
  simp only [hform, pkgs_any hpkg, ne_eq, not_true_eq_false, if_false, if_true]
  rfl

theorem exec_spareOverride (ha : Accepted s.blk 0x0070 true operatorOnly h x) (hlen : h.params.length = 4) {r : Run}
    (hrun : spareRun h (afterCounter s.blk h) = r) :
    exec (.spareOverride h) s = .next (answered s 0x0070 h r.1 r.2) :=
  actUp_command_critical hup ha ((sized_of_length hlen _ _).trans hrun)

/-- A table that nothing refuses is applied and stored. -/
theorem exec_torusTable (ha : Accepted s.blk 0x0071 true operatorOnly h x)
    (hok : tableRefusal (afterCounter s.blk h) h.params.length (readTable h.params) = none) :
    let t := readTable h.params
    exec (.torusTable h) s = .next (answered s 0x0071 h
      (storeTable (blkClamp (applyTable (afterCounter s.blk h) t) 0 t.clamps) h.params)
      { status := 0, detail := t.clamps }) := by
  refine actUp_command_answers hup ha ?_
  simp only [hok]

end

/-- Settles O45: each command is accepted and answers its run. -/
theorem testAndTableCommands : Obligations.TestAndTableCommands :=
  fun _ _ _ hup =>
    ⟨fun ha hlen hform hvolt hclk hidle hfree hpkg =>
        exec_fleetTestRun hup ha hlen (fleetRun_begins hform hvolt hclk hidle hfree hpkg),
      fun ha hlen hform hpkg => exec_fleetTestRemove hup ha hlen hform hpkg,
      fun ha hlen hpolicy => ⟨fun hkind => exec_spareOverride hup ha hlen (spareRun_tile hpolicy hkind),
        fun hkind => exec_spareOverride hup ha hlen (spareRun_channel hpolicy hkind),
        fun hkind => exec_spareOverride hup ha hlen (spareRun_link hpolicy hkind)⟩,
      fun ha hok => exec_torusTable hup ha hok⟩

end Sys2Proof.Machine
end

section
/-!
Records read back from their bytes: CBOR items, and with them a signature record (R505), and house messages (R353).
-/
namespace Sys2Proof.Machine

/-! ### Heads of CBOR items -/

@[simp] theorem length_beBytes (n v : Nat) : (beBytes n v).length = n := by simp [beBytes]

theorem leNat_reverse_beBytes {n v : Nat} (h : v < 256 ^ n) : leNat (beBytes n v).reverse = v := by
  rw [beBytes, List.reverse_reverse, leNat_leBytes_of_lt h]

section
variable {major n : Nat} (hmajor : major < 8) (rest : List Byte)
include hmajor

/-- The first byte of a head holds the major type and the additional information. -/
theorem toNat_headByte {a : Nat} (ha : a < 32) : (BitVec.ofNat 8 (32 * major + a)).toNat = 32 * major + a := by
  rw [BitVec.toNat_ofNat]
  omega

theorem readHead_short (hn : n < 24) : readHead (leBytes 1 (32 * major + n) ++ rest) = some (major, n, rest) := by
  have hbyte := toNat_headByte hmajor (a := n) (by omega)
  have htype : (32 * major + n) / 32 = major := by omega
  have harg : (32 * major + n) % 32 = n := by omega
  simp only [leBytes, List.cons_append, List.nil_append, readHead, hbyte, htype, harg, if_pos hn]

/-- Additional information `a` announces an argument of `k` bytes (RFC 8949). -/
theorem readHead_long {a k : Nat} (hk : (a, k) ∈ [(24, 1), (25, 2), (26, 4), (27, 8)]) (hn : n < 256 ^ k) :
    readHead (leBytes 1 (32 * major + a) ++ beBytes k n ++ rest) = some (major, n, rest) := by
  simp only [List.mem_cons, Prod.mk.injEq, List.not_mem_nil, or_false] at hk
  have hbyte := toNat_headByte hmajor (a := a) (by omega)
  have htype : (32 * major + a) / 32 = major := by omega
  have harg : (32 * major + a) % 32 = a := by omega
  have hread : (if k ≤ (beBytes k n ++ rest).length then
      some (major, leNat ((beBytes k n ++ rest).take k).reverse, (beBytes k n ++ rest).drop k) else none) =
      some (major, n, rest) := by
    simp [leNat_reverse_beBytes hn]
  rcases hk with ⟨rfl, rfl⟩ | ⟨rfl, rfl⟩ | ⟨rfl, rfl⟩ | ⟨rfl, rfl⟩ <;>
    simpa [leBytes, readHead, hbyte, htype, harg] using hread

/-- A head reads back, in whichever of its five lengths its argument takes. -/
theorem readHead_cborHead (hn : n < 2 ^ 64) : readHead (cborHead major n ++ rest) = some (major, n, rest) := by
  unfold cborHead
  split_ifs with h1 h2 h3 h4
  · exact readHead_short hmajor rest h1
  · exact readHead_long hmajor rest (a := 24) (by decide) h2
  · exact readHead_long hmajor rest (a := 25) (by decide) h3
  · exact readHead_long hmajor rest (a := 26) (by decide) h4
  · exact readHead_long hmajor rest (a := 27) (by decide) hn

end

/-! ### Items -/

/-- The reader `one` takes the bytes `x`, whatever follows them, as the value `a`. -/
def ReadsBack {α : Type} (one : List Byte → Option (α × List Byte)) (x : List Byte) (a : α) : Prop :=
  ∀ rest, one (x ++ rest) = some (a, rest)

theorem readsBack_uint {n : Nat} (hn : n < 2 ^ 64) : ReadsBack readUint (cborUint n) n := fun rest => by
  simp only [readUint, cborUint, readHead_cborHead (show 0 < 8 by decide) rest hn]

theorem readsBack_int {n : Int} (hlo : -2 ^ 64 ≤ n) (hhi : n < 2 ^ 64) : ReadsBack readInt (cborInt n) n := by
  intro rest
  unfold cborInt
  split
  next hneg =>
    simp only [readInt, readHead_cborHead (show 1 < 8 by decide) rest (show (-1 - n).toNat < 2 ^ 64 by omega)]
    rw [show -1 - ((-1 - n).toNat : Int) = n by omega]
  next hnat =>
    simp only [readInt, readHead_cborHead (show 0 < 8 by decide) rest (show n.toNat < 2 ^ 64 by omega)]
    rw [show (n.toNat : Int) = n by omega]

theorem readsBack_bytes {x : List Byte} (hx : x.length < 2 ^ 64) : ReadsBack readBstr (cborBytes x) x := fun rest => by
  simp [readBstr, cborBytes, readHead_cborHead (show 2 < 8 by decide) _ hx]

section
variable {α : Type} {one : List Byte → Option (α × List Byte)}

theorem readMany_map {enc : α → List Byte} {l : List α} (hone : ∀ a ∈ l, ReadsBack one (enc a) a) (rest : List Byte) :
    readMany one l.length ((l.map enc).flatMap id ++ rest) = some (l, rest) := by
  induction l with
  | nil => rfl
  | cons a l ih =>
    have hfirst := hone a List.mem_cons_self
    have hrest := ih fun b hb => hone b (List.mem_cons_of_mem a hb)
    simp only [List.map_cons, List.flatMap_cons, id_eq, List.append_assoc, List.length_cons, readMany, hfirst _,
      Option.bind_eq_bind, Option.bind_some, hrest, Option.pure_def]

/-- An array of at most 64 items reads back where each of its items does. -/
theorem readsBack_array {enc : α → List Byte} {l : List α} (hlen : l.length ≤ 64)
    (hone : ∀ a ∈ l, ReadsBack one (enc a) a) : ReadsBack (readArray one) (cborArray (l.map enc)) l := fun rest => by
  have hhead := readHead_cborHead (show 4 < 8 by decide) ((l.map enc).flatMap id ++ rest)
    (show l.length < 2 ^ 64 by omega)
  simp only [readArray, cborArray, List.length_map, List.append_assoc, hhead, if_pos hlen, readMany_map hone rest]

/-- The value under a record's key. -/
theorem readKey_cborUint (k : Nat) {x : List Byte} {a : α} (hx : ReadsBack one x a)
    (rest : List Byte) (hk : k < 2 ^ 64 := by decide) :
    readKey k one (cborUint k ++ (x ++ rest)) = some (a, rest) := by
  simp [readKey, readsBack_uint hk (x ++ rest), hx rest]

end

theorem readsBack_cell {c : Nat × Nat × List Byte × List Byte}
    (hc : c.1 < 2 ^ 64 ∧ c.2.1 < 2 ^ 64 ∧ c.2.2.1.length < 2 ^ 64 ∧ c.2.2.2.length < 2 ^ 64) :
    ReadsBack readCell (cborArray [cborUint c.1, cborUint c.2.1, cborBytes c.2.2.1, cborBytes c.2.2.2]) c := by
  intro rest
  obtain ⟨hrow, hcol, hexp, hobs⟩ := hc
  simp only [readCell, cborArray, List.flatMap_cons, List.flatMap_nil, id_eq, List.length_cons, List.length_nil,
    List.append_assoc, List.append_nil,
    readHead_cborHead (show 4 < 8 by decide) _ (show 0 + 1 + 1 + 1 + 1 < 2 ^ 64 by decide),
    readsBack_uint hrow _, readsBack_uint hcol _, readsBack_bytes hexp _, readsBack_bytes hobs _,
    Option.bind_eq_bind, Option.bind_some, Option.pure_def]

/-! ### Signature records (R505) -/

/-- What a record's fields must be for its CBOR item to hold them: numbers that a head holds, and arrays no longer than
the module's. -/
structure SigHeld (r : SigRec) : Prop where
  unacked : r.acked = false
  numbers : ∀ n ∈ [r.num, r.own, r.total, r.trigger, r.outcome], n < 2 ^ 64
  serial : r.serial.length < 2 ^ 64
  firmware : r.firmware.length < 2 ^ 64
  signed : ∀ x ∈ r.unit ++ r.conditions, -2 ^ 64 ≤ x ∧ x < 2 ^ 64
  unit : r.unit.length ≤ 64
  conditions : r.conditions.length ≤ 64
  codes : ∀ x ∈ r.pattern, x < 2 ^ 64
  pattern : r.pattern.length ≤ 64
  cells : r.cells.length ≤ 64
  cell : ∀ c ∈ r.cells, c.1 < 2 ^ 64 ∧ c.2.1 < 2 ^ 64 ∧ c.2.2.1.length < 2 ^ 64 ∧ c.2.2.2.length < 2 ^ 64

/-- A record that its item holds reads back, key after key. -/
theorem readSig_sigCbor {r : SigRec} (h : SigHeld r) : readSig (sigCbor r) = some r := by
  have hnum := h.numbers
  simp only [List.forall_mem_cons, List.not_mem_nil, false_imp_iff, implies_true, and_true] at hnum
  obtain ⟨hrec, hown, htotal, htrigger, houtcome⟩ := hnum
  have hunit := readsBack_array (enc := cborInt) h.unit fun x hx =>
    have hin := h.signed x (List.mem_append_left _ hx)
    readsBack_int hin.1 hin.2
  have hcond := readsBack_array (enc := cborInt) h.conditions fun x hx =>
    have hin := h.signed x (List.mem_append_right _ hx)
    readsBack_int hin.1 hin.2
  have hpattern := readsBack_array (enc := cborUint) h.pattern fun x hx => readsBack_uint (h.codes x hx)
  have hcells := readsBack_array h.cells fun c hc => readsBack_cell (h.cell c hc)
  have hlast := readKey_cborUint 10 (readsBack_uint houtcome) []
  have hself : { r with acked := false } = r := by rw [← h.unacked]
  rw [List.append_nil] at hlast
  unfold readSig sigCbor
  simp only [List.append_assoc, readHead_cborHead (show 5 < 8 by decide) _ (show 11 < 2 ^ 64 by decide),
    readKey_cborUint 0 (readsBack_uint hrec), readKey_cborUint 1 (readsBack_uint hown),
    readKey_cborUint 2 (readsBack_bytes h.serial), readKey_cborUint 3 hunit, readKey_cborUint 4 hpattern,
    readKey_cborUint 5 hcells, readKey_cborUint 6 (readsBack_uint htotal), readKey_cborUint 7 hcond,
    readKey_cborUint 8 (readsBack_bytes h.firmware),
    readKey_cborUint 9 (readsBack_uint htrigger), hlast,
    Option.bind_eq_bind, Option.bind_some, Option.pure_def, hself]

/-! ### House messages (R353) -/

theorem length_hmBytes (m : HouseMsg) : (hmBytes m).length = 64 := by simp [hmBytes]

/-- Thirty-two bytes are listed whole. -/
theorem range_getD_eq {x : List Byte} (hlen : x.length = 32) : ((List.range 32).map fun j => x.getD j 0) = x := by
  refine List.ext_getElem (by simp [hlen]) fun j h1 h2 => ?_
  simp [h2]

theorem readHm_hmBytes {m : HouseMsg} (hkind : m.kind < 2 ^ 8) (hhouse : m.house < 2 ^ 16) (hbody : m.body.length = 32) :
    readHm (hmBytes m) = m := by
  obtain ⟨kind, house, term, epoch, subject, seq, live, dead, body⟩ := m
  have hsubject : subject.toNat < 256 ^ 2 := subject.isLt.trans (by norm_num)
  have hkind : leNat (leBytes 1 kind) = kind := leNat_leBytes_of_lt hkind
  have hhouse : leNat (leBytes 2 house) = house := leNat_leBytes_of_lt hhouse
  have hbody : body.length = 32 := hbody
  simp only [readHm, hmBytes, range_getD_eq hbody]
  simp [List.drop_append, List.drop_eq_nil_of_le, hkind, hhouse, hbody, leNat_leBytes_of_lt hsubject,
    leNat_leBytes_toNat (n := 2) seq, leNat_leBytes_toNat (n := 4) term, leNat_leBytes_toNat (n := 4) epoch,
    leNat_leBytes_toNat (n := 8) live, leNat_leBytes_toNat (n := 8) dead]

/-- Settles O60: every key of a record reads back in turn, and every field of a message in its own bytes. -/
theorem recordsReadBack : Obligations.RecordsReadBack :=
  ⟨fun _ h1 h2 h3 h4 h5 h6 h7 h8 h9 h10 h11 => readSig_sigCbor ⟨h1, h2, h3, h4, h5, h6, h7, h8, h9, h10, h11⟩,
    fun m hkind hhouse hbody => ⟨length_hmBytes m, readHm_hmBytes hkind hhouse hbody⟩⟩

end Sys2Proof.Machine
end

section
/-!
The queue: what a step takes, and that no command stops the machine or touches the queue.
-/
namespace Sys2Proof.Machine

/-- The front command acts on the block with the queue's rest (log 2). -/
theorem step_front (i : Instr) (s : State) : step { s with pending := i :: s.pending } = exec i s := rfl

/-- With no command waiting the block idles (log 1). -/
theorem step_idle {s : State} (hempty : s.pending = []) : step s = .next s := by
  simp only [step, hempty]

/-- Settles O12: the two branches of a step. -/
theorem stepRunsFrontCommand : Obligations.StepRunsFrontCommand :=
  fun s => ⟨fun i => step_front i s, step_idle⟩

/-- Settles O13: what follows every command keeps the queue, and has nothing to do while a context runs undisturbed. -/
theorem everyCommandCompletes : Obligations.EveryCommandCompletes := by
  refine ⟨fun i s => ?_, fun a b hrun hwait hdrain hstep => ?_⟩
  · obtain ⟨d, hd⟩ := exec_became i s
    exact ⟨became s d, hd, became_pending s d⟩
  · obtain ⟨c, hc⟩ := Option.ne_none_iff_exists'.mp hrun
    exact after_id a b c hc hstep hwait hdrain

end Sys2Proof.Machine
end

section
/-!
Host frames (R420, R422, R435): the checks that a frame passes at a cabled port, in their order.
-/
namespace Sys2Proof.Machine

/-- A frame of a length that Ethernet allows, whose check sequence is its own (R422). -/
def FrameWhole (frame : List Byte) : Prop :=
  18 ≤ frame.length ∧ frame.length ≤ 9216 ∧ fcsOf (frame.take (frame.length - 4)) = frame.drop (frame.length - 4)

/-- The block once a frame is counted as received. -/
def frameCounted (b : Block) : Block :=
  let n := bump16 b.hp.rx b.hp.rxLow
  hpCount b fun h => { h with rx := n.1, rxLow := n.2 }

/-- A whole frame passes the check of length and FCS. -/
theorem not_dropped_of_whole {frame : List Byte} (hwhole : FrameWhole frame) :
    ¬ (9216 < frame.length ∨ frame.length < 18 ∨
      fcsOf (frame.take (frame.length - 4)) ≠ frame.drop (frame.length - 4)) := by
  obtain ⟨hmin, hmax, hfcs⟩ := hwhole
  simp [hmin, hmax, hfcs]

theorem dropped_of_not_whole {frame : List Byte} (hbroken : ¬ FrameWhole frame) :
    9216 < frame.length ∨ frame.length < 18 ∨
      fcsOf (frame.take (frame.length - 4)) ≠ frame.drop (frame.length - 4) := by
  by_contra hnone
  obtain ⟨hmax, hmin, hfcs⟩ : frame.length ≤ 9216 ∧ 18 ≤ frame.length ∧
      fcsOf (frame.take (frame.length - 4)) = frame.drop (frame.length - 4) := by simpa using hnone
  exact hbroken ⟨hmin, hmax, hfcs⟩

/-- The EtherTypes of IP are known, and none is ARP's. -/
theorem ip_accepted {e : Nat} (hip : e = 0x86DD ∨ e = 0x0800) :
    ¬ (e ≠ 0x86DD ∧ e ≠ 0x0800 ∧ e ≠ 0x0806) ∧ e ≠ 0x0806 := by omega

section
variable {b : Block} (hcabled : cabled b = true) {frame : List Byte} {second target : Nat}
include hcabled

theorem hostFrameReceive_broken (hbroken : ¬ FrameWhole frame) : hostFrameReceive frame second target b =
    hpCount (frameCounted b) fun h => { h with dropLen := satAdd h.dropLen 1 } := by
  simp only [hostFrameReceive, hcabled, dropped_of_not_whole hbroken, Bool.not_true, Bool.false_eq_true, if_false,
    if_true]
  rfl

section
variable (hwhole : FrameWhole frame)
include hwhole

theorem hostFrameReceive_otherProtocol (h6 : beAt frame 12 2 ≠ 0x86DD) (h4 : beAt frame 12 2 ≠ 0x0800)
    (harp : beAt frame 12 2 ≠ 0x0806) : hostFrameReceive frame second target b =
    hpCount (frameCounted b) fun h => { h with dropProto := satAdd h.dropProto 1 } := by
  simp only [hostFrameReceive, hcabled, not_dropped_of_whole hwhole, h6, h4, harp, Bool.not_true, Bool.false_eq_true,
    if_false, ne_eq, not_false_eq_true, and_self, if_true]
  rfl

section
variable (hip : beAt frame 12 2 = 0x86DD ∨ beAt frame 12 2 = 0x0800)
include hip

theorem hostFrameReceive_noDatagram
    (hnone : ipTake (frameCounted b).hp (beAt frame 12 2) ((frame.take (frame.length - 4)).drop 14) = none) :
    hostFrameReceive frame second target b =
      hpCount (frameCounted b) fun h => { h with dropIp := satAdd h.dropIp 1 } := by
  obtain ⟨hproto, harp⟩ := ip_accepted hip
  unfold frameCounted at hnone ⊢
  simp only [hostFrameReceive, hcabled, not_dropped_of_whole hwhole, hproto, harp, hnone, Bool.not_true,
    Bool.false_eq_true, if_false]

section
variable {d : Datagram}
  (hd : ipTake (frameCounted b).hp (beAt frame 12 2) ((frame.take (frame.length - 4)).drop 14) = some d)
  (hicmp : d.proto ≠ 1) (hicmp6 : d.proto ≠ 58)
include hd hicmp hicmp6

theorem hostFrameReceive_noUdp (hnone : udpTake d = none) : hostFrameReceive frame second target b =
    hpCount (frameCounted b) fun h => { h with dropUdp := satAdd h.dropUdp 1 } := by
  obtain ⟨hproto, harp⟩ := ip_accepted hip
  unfold frameCounted at hd ⊢
  simp only [hostFrameReceive, hcabled, not_dropped_of_whole hwhole, hproto, harp, hd, hicmp, hicmp6, hnone, or_self,
    Bool.not_true, Bool.false_eq_true, if_false]

/-- A datagram for a live member is relayed, any other goes to the transport. -/
theorem hostFrameReceive_datagram {p : List Byte} (hp : udpTake d = some p) : hostFrameReceive frame second target b =
    if relayMember (frameCounted b) target then
      queueFragments (hpCount (frameCounted b) fun h => { h with relayed := tins h.relayed target (senderOf frame d) })
        0x0A target p
    else transportTake (hpCount (frameCounted b) fun h => { h with sender := some (senderOf frame d) }) p second := by
  obtain ⟨hproto, harp⟩ := ip_accepted hip
  unfold frameCounted at hd ⊢
  simp only [hostFrameReceive, hcabled, not_dropped_of_whole hwhole, hproto, harp, hd, hicmp, hicmp6, hp, or_self,
    Bool.not_true, Bool.false_eq_true, if_false]

end
end
end
end

/-- Settles O38: each check's failure, and what passes them all. -/
theorem hostFramesReceived : Obligations.HostFramesReceived := by
  intro s frame second target hup hcabled n hp b body whole ether x
  refine ⟨fun hbroken => actUp_eq hup (hostFrameReceive_broken hcabled hbroken),
    fun hwhole h6 h4 harp => actUp_eq hup (hostFrameReceive_otherProtocol hcabled hwhole h6 h4 harp),
    fun hwhole hip => ⟨fun hnone => actUp_eq hup (hostFrameReceive_noDatagram hcabled hwhole hip hnone),
      fun d hd hicmp hicmp6 =>
       ⟨fun hnone => actUp_eq hup (hostFrameReceive_noUdp hcabled hwhole hip hd hicmp hicmp6 hnone),
        fun p hp => actUp_eq hup (hostFrameReceive_datagram hcabled hwhole hip hd hicmp hicmp6 hp)⟩⟩⟩

end Sys2Proof.Machine
end

section
/-!
Sessions (R423, R430, R461 to R463): the timers of one that is open, and the agreement that opens one.
-/
namespace Sys2Proof.Machine

/-! ### Timers -/

section
variable {b : Block} {id : Nat} {x : Session} (hopen : tlook b.sessions id = some x)
include hopen

/-- The resend timer: the frames of undelivered events on channel 1, the unacknowledged frames on the others. -/
theorem hostResend_open (ch : Nat) : hostResend id ch b =
    if ch = 1 then
      (x.events.foldl (fun (p : Block × Nat) e => (eventFrame p.1 id p.2 x.z e, p.2 + 1))
        (b, (chanOf x 1).txNext - x.events.length)).1
    else (chanOf x ch).unacked.foldl
      (fun z f => emitFrame z id ch (sealedFrame x.z id ch f.seq f.ack f.payload)) b := by
  simp only [hostResend, hopen]

theorem hostAck_due {ch : Nat} (hdue : (chanOf x ch).ackDue ≠ 0) : hostAck id ch b = sendAck b id ch := by
  simp only [hostAck, hopen, if_neg hdue]

theorem sessionInactivity_open : sessionInactivity id b =
    hpCount (closeSession b id) fun h => { h with sessionEnd := satAdd h.sessionEnd 1 } := by
  simp only [sessionInactivity, hopen, Option.isSome_some, if_true]

end

/-! ### Agreements -/

section
variable {b : Block}

/-- The block that has drawn the key pair and the nonce of an OFFER. -/
def helloDrawn (b : Block) : Block := (draw (draw b 64).2 32).2

/-- An OFFER's nonce, session and encapsulation key (R461). -/
def offerPart (b : Block) : List Byte :=
  (draw (draw b 64).2 32).1 ++ leBytes 8 (helloDrawn b).hp.nextSession.toNat ++ Config.mlkemKey (draw b 64).1

/-- The agreement that answering HELLO begins, its OFFER being `offer`. -/
def agreementBegun (b : Block) (role : Nat) (body offer : List Byte) : Agreement where
  role := role
  peer := body.drop 32
  transcript := body ++ offer
  session := (helloDrawn b).hp.nextSession
  dk := (draw b 64).1

theorem hello_offered {role : Nat} {body : List Byte} (hrole : role ≤ 2) (hroom : b.sessions.length < 8)
    (hroot : canKey b = true) {r : List Byte × Block}
    (hreport : report (helloDrawn b) (Config.shake (body ++ offerPart b)) 0 = some r) :
    let offer := offerPart b ++ r.2.vy.cert ++ r.1
    let id := (helloDrawn b).hp.nextSession
    hello role body b = sendAgreement
      (hpCount r.2 fun h => { h with
        nextSession := id + 1, agreements := h.agreements ++ [agreementBegun b role body offer] })
      id.toNat 2 role offer := by
  have hgood : ¬ (2 < role ∨ 8 ≤ b.sessions.length ∨ canKey b = false) := by
    rw [hroot]
    simp [hrole, hroom]
  unfold offerPart helloDrawn at hreport
  simp only [hello, if_neg hgood, hreport]
  rfl

/-- What ENCAP must pass for its session to open (R462, R463): the peer's signature, unless the role is open, the
operator's key, room for a session, and a working root. -/
def EncapGood (b : Block) (a : Agreement) (body : List Byte) : Prop :=
  (a.role = 0 ∨
      Config.mldsaVerify a.peer (Config.shake a.transcript ++ body.take 1568) (body.drop 1568) = true) ∧
    (a.role = 1 → operatorOk b (Config.shake a.peer) = true) ∧ b.sessions.length < 8 ∧ canKey b = true

/-- The checks as the model makes them. -/
theorem encapGood_iff {a : Agreement} {body : List Byte} : EncapGood b a body ↔
    ((a.role == 0 || Config.mldsaVerify a.peer (Config.shake a.transcript ++ body.take 1568) (body.drop 1568)) &&
      (a.role != 1 || operatorOk b (Config.shake a.peer)) && decide (b.sessions.length < 8) && canKey b) = true := by
  simp only [EncapGood, Bool.and_eq_true, Bool.or_eq_true, beq_iff_eq, bne_iff_ne, decide_eq_true_eq, and_assoc,
    ne_eq, imp_iff_not_or]

/-- The session that a finished agreement opens. -/
def sessionBegun (b : Block) (a : Agreement) (z : List Byte) : Session :=
  { role := roleOf a.role, peer := a.peer, z := z, addr := b.hp.sender }

section
variable {session : Nat} {body : List Byte} {a : Agreement}
  (hfind : b.hp.agreements.find? (fun a => a.session.toNat == session) = some a)
include hfind

theorem encap_refused (hbad : ¬ EncapGood b a body) : encap session body b = agreementError b session a.role := by
  rw [encapGood_iff] at hbad
  simp only [encap, hfind, if_neg hbad]

theorem encap_opens (hgood : EncapGood b a body) :
    let t := a.transcript ++ body
    let z := sessionSecret (Config.mlkemDecap a.dk (body.take 1568)) t
    encap session body b = sendAgreement
      (setSession (enrolFirst (hpCount b fun h => { h with agreements := h.agreements.filter fun q => q != a }) a)
        session (sessionBegun b a z)) session 4 a.role (Config.kmac (confirmKey z) t 256 []) := by
  rw [encapGood_iff] at hgood
  simp only [encap, hfind, if_pos hgood]
  rfl

theorem agreementTimeout_begun : agreementTimeout session b =
    agreeFailed (hpCount b fun h => { h with
      agreements := h.agreements.filter fun a => a.session.toNat != session }) := by
  have hnamed := List.find?_some hfind
  have hany : (b.hp.agreements.any fun a => a.session.toNat == session) = true :=
    List.any_eq_true.mpr ⟨a, List.mem_of_find?_eq_some hfind, hnamed⟩
  simp only [agreementTimeout, hany, if_true]

end
end

/-- Settles O39: the timers, HELLO, ENCAP and the timeout of an agreement, each where its conditions hold. -/
theorem sessionsOpenAndEnd : Obligations.SessionsOpenAndEnd :=
  ⟨fun _ _ ch _ hup hopen => ⟨actUp_eq hup (hostResend_open hopen ch.val),
      fun hdue => actUp_eq hup (hostAck_due hopen hdue), actUp_eq hup (sessionInactivity_open hopen)⟩,
    fun _ hup => ⟨fun _ _ hrole hroom hroot _ hreport => actUp_eq hup (hello_offered hrole hroom hroot hreport),
      fun _ _ _ hfind => ⟨fun hbad => actUp_eq hup (encap_refused hfind hbad),
        fun hgood => actUp_eq hup (encap_opens hfind hgood), actUp_eq hup (agreementTimeout_begun hfind)⟩⟩⟩

end Sys2Proof.Machine
end

section
/-!
Address services of the host port (R419), and the state of its Ethernet link (R417, R479).
-/
namespace Sys2Proof.Machine

section
variable {b : Block}

/-- The retry of a failed step 7, while the link is down, is a change of the link. -/
theorem hostPortRetry_failed (p : EtherPeer) (hfailed : (tget b.pw.itin {} 7).now = 3) (hdown : b.hp.link.toNat < 2) :
    hostPortRetry p b = ethernetChange p b :=
  if_pos ⟨hfailed, hdown⟩

section
variable (hcabled : cabled b = true)
include hcabled

theorem dhcpReply_cabled (ip : BitVec 32) : dhcpReply ip b = hpCount b fun h => { h with ip4 := ip, ipv4 := true } :=
  if_pos hcabled

theorem routerAdvertisement_cabled (p : U64) : routerAdvertisement p b =
    hpCount b fun h => addIp6 h ((p.setWidth 128 <<< 64) ||| (eui64 h.mac).setWidth 128) :=
  if_pos hcabled

/-- ARP for the port's own IPv4 address is answered. -/
theorem arpRequest_own (mac : BitVec 48) (ip : BitVec 32) (hv4 : b.hp.ipv4 = true) : ∃ body,
    arpRequest mac ip b.hp.ip4 b = emitClear b (etherFrame b.hp (beBytes 6 mac.toNat) 0x0806 body) := by
  simp only [arpRequest, hcabled, hv4, beq_self_eq_true, Bool.and_self, if_true]
  exact ⟨_, rfl⟩

section
variable (mac : BitVec 48) (ip : BitVec 128) {want : BitVec 128}

/-- A solicitation for one of the port's IPv6 addresses is answered by the port's MAC address. -/
theorem neighbourSolicitation_own (hown : b.hp.ip6.contains want = true) : neighbourSolicitation mac ip want b =
    emitClear b (etherFrame b.hp (beBytes 6 mac.toNat) 0x86DD (icmp6 want ip 255 (beBytes 2 0x8800)
      (beBytes 4 0x60000000 ++ beBytes 16 want.toNat ++ beBytes 2 0x0201 ++ macBytes b.hp))) := by
  simp only [neighbourSolicitation, hcabled, hown, Bool.and_self, if_true]

theorem echoRequest_v6 (hown : b.hp.ip6.contains want = true) (x : List Byte) : echoRequest true mac ip want x b =
    emitClear b (etherFrame b.hp (beBytes 6 mac.toNat) 0x86DD (icmp6 want ip 64 (beBytes 2 0x8100) x)) := by
  simp only [echoRequest, hcabled, hown, Bool.not_true, Bool.false_eq_true, if_false, if_true]

theorem echoRequest_v4 (hv4 : b.hp.ipv4 = true) (x : List Byte) : ∃ head,
    echoRequest false mac ip (b.hp.ip4.setWidth 128) x b =
      emitClear b (etherFrame b.hp (beBytes 6 mac.toNat) 0x0800 (head ++ x)) := by
  simp only [echoRequest, hcabled, hv4, beq_self_eq_true, Bool.and_self, Bool.not_true, Bool.false_eq_true, if_false,
    if_true]
  exact ⟨_, rfl⟩

end
end
end

/-- Settles O40: each service answers for an address that is the port's, and the link takes the state that R417 gives. -/
theorem addressServices : Obligations.AddressServices := by
  intro s hup
  refine ⟨fun p => ⟨actUp_next _ s hup, fun hfailed hdown => actUp_eq hup (hostPortRetry_failed p hfailed hdown)⟩,
    fun hcabled => ⟨fun ip => actUp_eq hup (dhcpReply_cabled hcabled ip),
      fun p => actUp_eq hup (routerAdvertisement_cabled hcabled p), ?_, fun mac ip want hown =>
        ⟨actUp_eq hup (neighbourSolicitation_own hcabled mac ip hown),
          fun x => actUp_eq hup (echoRequest_v6 hcabled mac ip hown x)⟩, ?_⟩⟩
  · rintro mac ip _ hv4 rfl
    obtain ⟨body, hbody⟩ := arpRequest_own hcabled mac ip hv4
    exact ⟨body, actUp_eq hup hbody⟩
  · rintro mac ip _ x hv4 rfl
    obtain ⟨head, hhead⟩ := echoRequest_v4 hcabled mac ip hv4 x
    exact ⟨head, actUp_eq hup hhead⟩

end Sys2Proof.Machine
end

section
/-!
The checks of a host command, in the order of R428: what a command that fails one of them answers.
-/
namespace Sys2Proof.Machine

section
variable {b : Block} {x : Session} {op : Nat} {critical : Bool} {roles : List Role} {h : Cmd} {f : Block → Session → Run}
  (hopen : tlook b.sessions h.session = some x)
include hopen

/-- A repeated identifier gets its kept response. -/
theorem command_repeated {r : Reply} (hkept : (x.kept.find? fun r => r.id == h.id) = some r) :
    command op critical roles h f b = sendReply b h.session h.target r := by
  simp only [command, hopen, hkept]

section
variable (hnew : ∀ r ∈ x.kept, r.id ≠ h.id)
include hnew

theorem command_otherModule (hother : h.target ≠ b.geo.own.toNat) : command op critical roles h f b =
    if relayMember b h.target then b else answer b op h { status := 9 } := by
  have hnone : (x.kept.find? fun r => r.id == h.id) = none := by simpa using hnew
  simp only [command, hopen, hnone, if_pos hother]

/-- A new command that names this module answers what running it gives. -/
theorem command_here (hhere : h.target = b.geo.own.toNat) {r : Run}
    (hr : runCommand b x op critical roles h f = r) : command op critical roles h f b = answer r.1 op h r.2 := by
  have hnone : (x.kept.find? fun r => r.id == h.id) = none := by simpa using hnew
  simp only [command, hopen, hnone, hhere, ne_eq, not_true_eq_false, if_false, hr]

end
end

/-- What a critical command's check must be (R428, R462). -/
def commandCheck (x : Session) (op : Nat) (h : Cmd) : List Byte :=
  Config.kmac (commandKey x.z) (leBytes 8 h.session ++ cmdBytes op h) 128 (ascii "ZTM-T32 CMD")

section
variable {b : Block} {x : Session} {op : Nat} {critical : Bool} {roles : List Role} {h : Cmd} {f : Block → Session → Run}

theorem runCommand_flag (hflag : h.flags.getLsbD 0 ≠ critical) :
    runCommand b x op critical roles h f = (b, { status := 2 }) :=
  if_pos hflag

section
variable (hflag : h.flags.getLsbD 0 = critical)
include hflag

theorem runCommand_length (hlen : h.len ≠ h.params.length) :
    runCommand b x op critical roles h f = (b, { status := 0x0A }) := by
  simp only [runCommand, hflag, ne_eq, not_true_eq_false, if_false, if_pos hlen]
  rfl

theorem runCommand_role (hlen : h.len = h.params.length) (hrole : roles.contains x.role = false) :
    runCommand b x op critical roles h f = (if critical then refusedCount b else b, { status := 5 }) := by
  simp only [runCommand, hflag, hlen, hrole, ne_eq, not_true_eq_false, if_false, Bool.not_false, if_true]
  rfl

end

section
variable (hflag : h.flags.getLsbD 0 = true) (hlen : h.len = h.params.length) (hrole : roles.contains x.role = true)
include hflag hlen hrole

theorem runCommand_check (hcheck : commandCheck x op h ≠ h.check) :
    runCommand b x op true roles h f = (refusedCount b, { status := 3 }) := by
  unfold commandCheck at hcheck
  simp only [runCommand, hflag, hlen, hrole, hcheck, ne_eq, not_true_eq_false, not_false_eq_true, if_false,
    Bool.not_true, Bool.false_eq_true, if_true]

theorem runCommand_counter (hcheck : commandCheck x op h = h.check) (hold : h.counter.toNat ≤ b.hp.lastCtr.toNat) :
    runCommand b x op true roles h f = (refusedCount b, { status := 4 }) := by
  unfold commandCheck at hcheck
  simp only [runCommand, hflag, hlen, hrole, hcheck, ne_eq, not_true_eq_false, if_false, Bool.not_true,
    Bool.false_eq_true, if_true, if_pos hold]

end
end

/-- Settles O41: each check's failure, those before it passed. -/
theorem commandsCheckedInOrder : Obligations.CommandsCheckedInOrder := by
  intro b x op critical roles h f hopen run counted check here
  refine ⟨fun r hkept => command_repeated hopen hkept, fun hnew hother => command_otherModule hopen hnew hother,
    fun ⟨hnew, hown⟩ hflag => command_here hopen hnew hown (runCommand_flag hflag),
    fun ⟨hnew, hown⟩ hflag hlen => command_here hopen hnew hown (runCommand_length hflag hlen),
    fun ⟨hnew, hown⟩ hflag hlen hrole => command_here hopen hnew hown (runCommand_role hflag hlen hrole),
    fun ⟨hnew, hown⟩ hcritical hflag hlen hrole => ?_⟩
  subst hcritical
  exact ⟨fun hcheck => command_here hopen hnew hown (runCommand_check hflag hlen hrole hcheck),
    fun hcheck hold => command_here hopen hnew hown (runCommand_counter hflag hlen hrole hcheck hold)⟩

end Sys2Proof.Machine
end

section
/-!
General commands and register writes (R423, R425, R460, R508). SESSION_CLOSE ends the session once its response is the
last one kept, so what sending leaves of the responses kept comes first.
-/
namespace Sys2Proof.Machine

/-! ### Kept responses -/

/-- What each of a list of updates keeps, all of them keep. -/
theorem foldl_keeps {α β : Type} {g : Block → β} {f : Block → α → Block} (hf : ∀ d a, g (f d a) = g d) (l : List α)
    (b : Block) : g (l.foldl f b) = g b := by
  induction l generalizing b with
  | nil => rfl
  | cons a l ih => exact (ih _).trans (hf b a)

/-- The responses that session `id` keeps, none where it is not open. -/
def keptOf (b : Block) (id : Nat) : Option (List Reply) := (tlook b.sessions id).map Session.kept

section
variable (b : Block) (i : Nat)

/-- A session stored with the responses it kept. -/
theorem keptOf_setSession {id : Nat} {x y : Session} (hopen : tlook b.sessions id = some y) (hkept : x.kept = y.kept) :
    keptOf (setSession b id x) i = keptOf b i := by
  by_cases hi : i = id
  · subst hi
    simp [keptOf, setSession, hopen, hkept]
  · simp [keptOf, setSession, tlook_tins_other _ _ _ _ hi]

@[simp] theorem keptOf_eventFrame (id seq : Nat) (z : List Byte) (v : EventSent) :
    keptOf (eventFrame b id seq z v) i = keptOf b i := by
  unfold eventFrame countTx
  dsimp only
  split
  · split <;> rfl
  · split <;> rfl

@[simp] theorem keptOf_queueEvent (id n : Nat) (e : Event) : keptOf (queueEvent b id n e) i = keptOf b i := by
  unfold queueEvent
  split
  next => rfl
  next x hx =>
    split
    · exact keptOf_setSession b i hx rfl
    · rw [keptOf_eventFrame]
      exact keptOf_setSession b i hx rfl

@[simp] theorem keptOf_sendEvent (e : Event) : keptOf (sendEvent b e) i = keptOf b i :=
  foldl_keeps (g := fun d => keptOf d i) (fun d id => keptOf_queueEvent d i id b.eventNo e) _ _

/-! Memory, and the faults of its words. -/

@[simp] theorem keptOf_wrKey (k : Nat) (x : Byte) : keptOf (wrKey b k x) i = keptOf b i := by
  unfold wrKey; split <;> rfl

@[simp] theorem keptOf_wrList (k : Nat) (l : List Byte) : keptOf (wrList b k l) i = keptOf b i := by
  induction l generalizing b k with
  | nil => rfl
  | cons x l ih => rw [wrList, ih, keptOf_wrKey]

@[simp] theorem keptOf_sendWakes (k n : Nat) : keptOf (sendWakes b k n) i = keptOf b i := by
  unfold sendWakes; split <;> rfl

@[simp] theorem keptOf_wrKeys (k : Nat) (l : List Byte) : keptOf (wrKeys b k l) i = keptOf b i := by
  rw [wrKeys, keptOf_sendWakes, keptOf_wrList]
  rfl

@[simp] theorem keptOf_takeWord (w : Nat) (d : BitVec 128) : keptOf (takeWord b w d) i = keptOf b i := by
  unfold takeWord
  dsimp only
  split
  · rfl
  · rw [keptOf_wrList]
    rfl

@[simp] theorem keptOf_countErr (k : Nat) (bad : Bool) : keptOf (countErr b k bad) i = keptOf b i := by
  unfold countErr; dsimp only; split <;> rfl

theorem keptOf_readErr (x : Block × Option Nat) (w : Nat) (e : BitVec 144) :
    keptOf (readErr x w e).1 i = keptOf x.1 i := by
  unfold readErr; split <;> simp

theorem keptOf_readErrs (l : Tbl (BitVec 144)) : keptOf (readErrs b l).1 i = keptOf b i := by
  have hfold (x : Block × Option Nat) :
      keptOf (l.foldl (fun x e => readErr x e.1 e.2) x).1 i = keptOf x.1 i := by
    induction l generalizing x with
    | nil => rfl
    | cons e l ih => exact (ih _).trans (keptOf_readErr i x e.1 e.2)
  exact hfold (b, none)

@[simp] theorem keptOf_mergeRead (k n : Nat) : keptOf (mergeRead b k n).1 i = keptOf b i := by
  unfold mergeRead
  dsimp only
  split
  · exact keptOf_readErrs b i _
  · exact keptOf_readErrs b i _
  · rfl

@[simp] theorem keptOf_mcCount (l n : Nat) (write : Bool) : keptOf (mcCount b l n write) i = keptOf b i := by
  unfold mcCount
  split
  · rfl
  · split <;> rfl

@[simp] theorem keptOf_cacheUse (l n : Nat) (write : Bool) : keptOf (cacheUse b l n write) i = keptOf b i := by
  unfold cacheUse
  split
  · dsimp only
    split <;> rfl
  · rfl

@[simp] theorem keptOf_haltCtx (c : Nat) (st : CtxSt) : keptOf (haltCtx b c st) i = keptOf b i := by
  unfold haltCtx
  split
  · rfl
  · split <;> rfl

@[simp] theorem keptOf_chipFault (level unit cause : Nat) : keptOf (chipFault b level unit cause) i = keptOf b i := by
  unfold chipFault
  rw [keptOf_sendEvent]
  split
  · rw [keptOf_haltCtx]
    rfl
  · rfl

@[simp] theorem keptOf_memFault (k : Nat) : keptOf (memFault b k) i = keptOf b i := by
  unfold memFault
  split
  · exact keptOf_chipFault _ i _ _ _
  · exact keptOf_chipFault _ i _ _ _
  · exact keptOf_chipFault _ i _ _ _
  · rfl

@[simp] theorem keptOf_writeMem (k l : Nat) (x : List Byte) : keptOf (writeMem b k l x).1 i = keptOf b i := by
  unfold writeMem
  dsimp only
  split <;> simp

/-! Flits and house messages. -/

@[simp] theorem keptOf_leaveBuffer (e : Queued) : keptOf (leaveBuffer b e) i = keptOf b i := by
  unfold leaveBuffer; split <;> rfl

@[simp] theorem keptOf_drainN (n k : Nat) : keptOf (drainN n b k) i = keptOf b i := by
  induction n generalizing b with
  | zero => rfl
  | succ n ih =>
    unfold drainN
    dsimp only
    split
    next => rfl
    next =>
      split
      next => rfl
      next e _ => exact (ih _).trans (keptOf_leaveBuffer _ i e)

theorem keptOf_launch {f : Flit} {came : Option (Nat × Nat)} {d : Block} (hsent : launch b f came = some d) :
    keptOf d i = keptOf b i := by
  unfold launch at hsent
  split at hsent
  next => cases hsent
  next =>
    split at hsent
    next => cases hsent
    next =>
      cases hsent
      exact keptOf_drainN _ i _ _

@[simp] theorem keptOf_sendHouse (dst : Nat) (m : HouseMsg) : keptOf (sendHouse b dst m) i = keptOf b i := by
  unfold sendHouse
  split
  · exact keptOf_writeMem b i _ _ _
  · split
    · rfl
    · split
      next hsent => exact keptOf_launch b i hsent
      next => rfl

@[simp] theorem keptOf_queueFragments (kind dst : Nat) (x : List Byte) :
    keptOf (queueFragments b kind dst x) i = keptOf b i := by
  unfold queueFragments sendFragment
  dsimp only
  split
  · split
    · exact keptOf_sendHouse _ i _ _
    · rfl
  · rfl

/-! Frames and responses. -/

@[simp] theorem keptOf_emitFrame (id ch : Nat) (x : List Byte) : keptOf (emitFrame b id ch x) i = keptOf b i := by
  unfold emitFrame
  split
  · rfl
  · exact keptOf_queueFragments b i _ _ _

@[simp] theorem keptOf_pumpChan (n id ch : Nat) : keptOf (pumpChan n b id ch) i = keptOf b i := by
  induction n generalizing b with
  | zero => rfl
  | succ n ih =>
    unfold pumpChan
    split
    next => rfl
    next x hx =>
      dsimp only
      split
      next => rfl
      next =>
        split
        · rfl
        · rw [ih, keptOf_emitFrame]
          exact keptOf_setSession b i hx rfl

@[simp] theorem keptOf_sendReply (id target : Nat) (r : Reply) : keptOf (sendReply b id target r) i = keptOf b i := by
  unfold sendReply sendOn
  split
  next => rfl
  next x hx =>
    rw [keptOf_pumpChan]
    exact keptOf_setSession _ i hx rfl

end

/-- A command's response. -/
def replyTo (op : Nat) (h : Cmd) (a : Ans) : Reply :=
  { op := op, status := a.status, id := h.id, detail := BitVec.ofNat 64 a.detail, data := a.data }

/-- A command's answer leaves its response the last of those its session keeps. -/
theorem keptOf_answer {b : Block} {h : Cmd} {x : Session} (hopen : tlook b.sessions h.session = some x) (op : Nat)
    (a : Ans) :
    keptOf (answer b op h a) h.session = some ((x.kept ++ [replyTo op h a]).drop (x.kept.length - 63)) := by
  simp only [answer, hopen, keptOf_sendReply]
  simp [keptOf, setSession, replyTo]

/-! ### Session and register commands -/

section
variable {s : State} (hup : Up s) {h : Cmd} {x : Session}
include hup

/-- An accepted command answers its run, given as the block and the answer. -/
theorem actUp_command_plain_answers {op : Nat} {roles : List Role} {f : Block → Session → Run}
    (ha : Accepted s.blk op false roles h x) {d : Block} {a : Ans} (hr : f s.blk x = (d, a)) :
    actUp (command op false roles h f) s = .next (answered s op h d a) :=
  actUp_command_plain hup ha hr

theorem exec_status (ha : Accepted s.blk 0x0001 false anyRole h x) :
    exec (.status h) s = .next (answered s 0x0001 h s.blk { status := 0, data := statusData s.blk }) :=
  actUp_command_plain_answers hup ha rfl

theorem exec_identity (ha : Accepted s.blk 0x0002 false anyRole h x) (hlen : h.params.length = 64)
    (hroot : canKey s.blk = true) {r : List Byte × Block} (hreport : report s.blk h.params 0 = some r) :
    exec (.identity h) s = .next (answered s 0x0002 h r.2 { status := 0, data := s.blk.vy.cert ++ r.1 }) := by
  refine actUp_command_plain_answers hup ha ((sized_of_length hlen _ _).trans ?_)
  simp only [hroot, if_true, hreport]

/-- SESSION_CLOSE: its response leaves, then the session ends. -/
theorem exec_sessionClose (ha : Accepted s.blk 0x0003 false anyRole h x) : exec (.sessionClose h) s =
    .next (became s (closeSession (answer s.blk 0x0003 h { status := 0 }) h.session)) := by
  have hanswer : command 0x0003 false anyRole h (fun x _ => done x) s.blk = answer s.blk 0x0003 h { status := 0 } :=
    command_accepted s.blk x 0x0003 false anyRole h _ ha
  obtain ⟨y, hy, hkept⟩ := Option.map_eq_some_iff.mp (keptOf_answer ha.1 0x0003 { status := 0 })
  have hlast : y.kept.getLast? = some (replyTo 0x0003 h { status := 0 }) := by
    rw [hkept, List.getLast?_drop, if_neg (by simp)]
    simp
  refine actUp_eq hup ?_
  simp only [cmdSessionClose, hanswer, hy, hlast, Option.map_some, replyTo, if_true]

theorem exec_regRead (ha : Accepted s.blk 0x0010 false readerRole h x) (hlen : h.params.length = 8)
    (hctl : isControl (par h 0 8 / 4 * 4) = true) : exec (.regRead h) s =
    .next (answered s 0x0010 h (latchLow s.blk (par h 0 8 / 4 * 4))
      { status := 0, data := leBytes 4 (hostRegister s.blk (par h 0 8 / 4 * 4)).toNat }) :=
  actUp_command_plain_answers hup ha (if_pos ⟨hlen, hctl⟩)

theorem exec_regWrite (ha : Accepted s.blk 0x0011 false operatorOnly h x) (hlen : h.params.length = 12)
    (hctl : isControl (par h 0 8 / 4 * 4) = true) (hpolicy : s.blk.chip.policy.getLsbD 0 = false)
    (hroot : blkAt s.blk (blkIndex (par h 0 8 / 4 * 4)) ≠ .vyano) :
    let r := wrote (ctlWrite s.blk (par h 0 8 / 4 * 4) (BitVec.ofNat 32 (par h 8 4)))
    exec (.regWrite h) s = .next (answered s 0x0011 h r.1 r.2) := by
  refine actUp_command_plain hup ha ?_
  simp only [hlen, hctl, hpolicy, hroot, and_self, if_true, Bool.false_eq_true, if_false]

/-! ### Signature records (R508) -/

theorem exec_signaturesRead (ha : Accepted s.blk 0x0061 false readerRole h x) (hlen : h.params.length = 12)
    (hform : par h 0 1 = 0) (hformat : par h 1 1 ≤ 1) :
    let recs := (s.blk.ft.recs.filter fun r => decide (par h 4 4 ≤ r.num)).take (par h 8 4)
    exec (.signaturesRead h) s = .next (answered s 0x0061 h s.blk
      { status := 0, data := if par h 1 1 = 0 then recs.flatMap sigCbor else jsonArray (recs.map sigJson) }) := by
  have hdefined : ¬ (par h 0 1 ≠ 0 ∨ 1 < par h 1 1) := by omega
  exact actUp_command_plain_answers hup ha ((sized_of_length hlen _ _).trans (if_neg hdefined))

theorem exec_signaturesAck (ha : Accepted s.blk 0x0061 false readerRole h x) (hlen : h.params.length = 8)
    (hform : par h 0 1 = 1) : exec (.signaturesAck h) s = .next (answered s 0x0061 h
      { s.blk with ft := { s.blk.ft with
        recs := s.blk.ft.recs.map fun r => if r.num ≤ par h 4 4 then { r with acked := true } else r } }
      { status := 0 }) :=
  actUp_command_plain_answers hup ha ((sized_of_length hlen _ _).trans (if_neg (not_not_intro hform)))

end

/-- Settles O42: each command is accepted and answers its run. -/
theorem generalCommands : Obligations.GeneralCommands :=
  fun _ _ _ hup =>
    ⟨fun ha => exec_status hup ha, fun ha hlen hroot _ hreport => exec_identity hup ha hlen hroot hreport,
      fun ha => exec_sessionClose hup ha, fun ha hlen hctl => exec_regRead hup ha hlen hctl,
      fun ha hlen hctl hpolicy hroot => exec_regWrite hup ha hlen hctl hpolicy hroot,
      fun ha hlen hform hformat => exec_signaturesRead hup ha hlen hform hformat,
      fun ha hlen hform => exec_signaturesAck hup ha hlen hform⟩

end Sys2Proof.Machine
end

section
/-!
Keys, firmware, locks, debug and resets (R432, R446, R459, R464, R468, R485, R510): what the run of each command gives
where its conditions hold.
-/
namespace Sys2Proof.Machine

section
variable {s : State} (hup : Up s) {h : Cmd} {x : Session}
include hup

/-! ### Keys (R464, R468) -/

/-- KEY_LOAD of the row's kind and length answers its run. -/
theorem actUp_keyLoad {kind n : Nat} {roles : List Role} {f : Block → Session → Run}
    (ha : Accepted s.blk 0x0031 true roles h x) (hkind : par h 0 1 = kind) (hlen : h.params.length = n) {r : Run}
    (hr : f (afterCounter s.blk h) x = r) :
    actUp (keyLoad kind n roles h f) s = .next (answered s 0x0031 h r.1 r.2) :=
  actUp_command_critical hup ha ((if_pos hkind).trans ((sized_of_length hlen _ _).trans hr))

/-- A confidential context that no owner's key binds yet takes the session's. -/
theorem exec_keyLoadBindOwner (ha : Accepted s.blk 0x0031 true [.owner] h x) (hkind : par h 0 1 = 1)
    (hlen : h.params.length = 66) {y : Ctx} (hy : tlook (afterCounter s.blk h).ctxs (ctxPar h 1).1 = some y)
    (hconf : y.confidential = true) (hfree : y.ownerKey = none) (hroot : canKey (afterCounter s.blk h) = true) :
    let c := ctxPar h 1
    let r := withClamps c.2 (done (setCtx (afterCounter s.blk h) c.1 { y with
      ownerKey := some x.peer, boundDigest := some (h.params.drop 2),
      ledgerKey := contextKey x.z "LEDGER" c.1, ckptKey := contextKey x.z "CKPT" c.1 }))
    exec (.keyLoadBindOwner h) s = .next (answered s 0x0031 h r.1 r.2) := by
  refine actUp_keyLoad hup ha hkind hlen ?_
  simp only [hy, hconf, hfree, hroot, Bool.not_true, Bool.false_eq_true, if_false, Option.isSome_none]

theorem exec_keyLoadEnrolOperator (ha : Accepted s.blk 0x0031 true operatorOnly h x) (hkind : par h 0 1 = 2)
    (hlen : h.params.length = 66) :
    let slot := clampTo 0 3 (par h 1 1)
    let r := withClamps slot.2 (done (nvWrite (afterCounter s.blk h) fun v =>
      { v with opsNv := v.opsNv.write (v.ops.set slot.1 (some (h.params.drop 2))) }))
    exec (.keyLoadEnrolOperator h) s = .next (answered s 0x0031 h r.1 r.2) :=
  actUp_keyLoad hup ha hkind hlen rfl

/-- A slot that holds another key than the session's own is emptied. -/
theorem exec_keyLoadRemoveOperator (ha : Accepted s.blk 0x0031 true operatorOnly h x) (hkind : par h 0 1 = 3)
    (hlen : h.params.length = 2)
    (hother : (afterCounter s.blk h).vy.ops.getD (clampTo 0 3 (par h 1 1)).1 none ≠ some (Config.shake x.peer)) :
    let slot := clampTo 0 3 (par h 1 1)
    let r := withClamps slot.2 (done (nvWrite (afterCounter s.blk h) fun v =>
      { v with opsNv := v.opsNv.write (v.ops.set slot.1 none) }))
    exec (.keyLoadRemoveOperator h) s = .next (answered s 0x0031 h r.1 r.2) := by
  refine actUp_keyLoad hup ha hkind hlen ?_
  simp only [if_neg hother]

/-! ### Firmware, locks and debug (R432, R446, R459, R510) -/

section
variable (ha : Accepted s.blk 0x0032 true operatorOnly h x)
include ha

theorem exec_firmwareLoad_opens (hclosed : (afterCounter s.blk h).hp.window = none) :
    let b := afterCounter s.blk h
    exec (.firmwareLoad h) s =
      .next (answered s 0x0032 h { b with hp := { b.hp with window := some [] } } { status := 0 }) := by
  refine actUp_command_answers hup ha ?_
  simp only [hclosed]
  rfl

/-- What an open window holds is verified and installed. -/
theorem exec_firmwareLoad_installs {w : List Byte} (hopen : (afterCounter s.blk h).hp.window = some w) {d : Block}
    (hinstalls : installWindow { afterCounter s.blk h with hp := { (afterCounter s.blk h).hp with window := none } } w =
      .inr d) : exec (.firmwareLoad h) s = .next (answered s 0x0032 h d { status := 0 }) := by
  refine actUp_command_answers hup ha ?_
  simp only [hopen, hinstalls]
  rfl

end

theorem exec_lock (ha : Accepted s.blk 0x0040 true operatorOnly h x) (hlen : h.params.length = 4) :
    let b := afterCounter s.blk h
    exec (.lock h) s = .next (answered s 0x0040 h
      { b with chip := { b.chip with locks := b.chip.locks ||| BitVec.ofNat 6 (par h 0 4) } } { status := 0 }) :=
  actUp_command_answers hup ha (sized_of_length hlen _ _)

/-- DEBUG while no context is confidential. -/
theorem exec_debug (ha : Accepted s.blk 0x0041 true operatorOnly h x)
    (hplain : ∀ e ∈ (afterCounter s.blk h).ctxs, e.2.confidential = false) :
    let b := afterCounter s.blk h
    exec (.debug h) s =
      .next (answered s 0x0041 h { b with chip := { b.chip with debugOn := true } } { status := 0 }) := by
  have hnone : ((afterCounter s.blk h).ctxs.any fun e => e.2.confidential) = false := by
    simpa using hplain
  refine actUp_command_answers hup ha ?_
  simp only [hnone, Bool.false_eq_true, if_false]
  rfl

/-! ### Resets (R485) -/

theorem exec_reset (ha : Accepted s.blk 0x0050 true operatorOnly h x) (hlen : h.params.length = 4) {d : Block} {a : Ans}
    (hr : resetRun h (afterCounter s.blk h) = (d, a)) : exec (.reset h) s = .next (answered s 0x0050 h d a) :=
  actUp_command_answers hup ha ((sized_of_length hlen _ _).trans hr)

end

section
variable {h : Cmd} {b : Block}

/-- RESET of the module, with RETAIN for kind 1. -/
theorem resetRun_module (hkind : par h 0 1 ≤ 1) : resetRun h b = done { b with pw := { b.pw with
    phase := .resetting (par h 0 1 == 1), clearItin := (par h 1 1).testBit 0 } } := by
  rcases Nat.le_one_iff_eq_zero_or_eq_one.mp hkind with hkind | hkind <;> simp only [resetRun, hkind] <;> rfl

theorem resetRun_context (hkind : par h 0 1 = 2) (hctx : resident b (clampTo 0 15 (par h 2 2)).1 = true) :
    let c := clampTo 0 15 (par h 2 2)
    resetRun h b = withClamps c.2 (done { b with pw := { b.pw with resetCtx := some c.1 } }) := by
  simp only [resetRun, hkind, hctx, if_true]

theorem resetRun_tile (hkind : par h 0 1 = 3) (htile : tilePresent b (clampTo 0 1151 (par h 2 2)).1 = true) :
    let t := clampTo 0 1151 (par h 2 2)
    resetRun h b = withClamps t.2 (done (tileReset t.1 b)) := by
  simp only [resetRun, hkind, htile, if_true]

end

/-- Settles O44: each command is accepted and answers its run. -/
theorem moduleCommands : Obligations.ModuleCommands :=
  fun _ _ _ hup =>
    ⟨fun _ ha hkind hlen hy hconf hfree hroot => exec_keyLoadBindOwner hup ha hkind hlen hy hconf hfree hroot,
      fun ha hkind hlen => exec_keyLoadEnrolOperator hup ha hkind hlen,
      fun ha hkind hlen hother => exec_keyLoadRemoveOperator hup ha hkind hlen hother,
      fun ha => ⟨fun hclosed => exec_firmwareLoad_opens hup ha hclosed,
        fun _ _ hopen hinstalls => exec_firmwareLoad_installs hup ha hopen hinstalls⟩,
      fun ha hlen => exec_lock hup ha hlen, fun ha hplain => exec_debug hup ha hplain,
      fun ha hlen hkind => exec_reset hup ha hlen (resetRun_module hkind),
      fun ha hlen hkind hctx => exec_reset hup ha hlen (resetRun_context hkind hctx),
      fun ha hlen hkind htile => exec_reset hup ha hlen (resetRun_tile hkind htile)⟩

end Sys2Proof.Machine
end

section
/-!
The key agreement of a link (R310, R465).
-/
namespace Sys2Proof.Machine

section
variable {b : Block} {k : Nat} {p : KeyPeer}

/-- This module is the end of link k with the lower number (R465). -/
def lowerEnd (b : Block) (k : Nat) : Bool := decide (b.geo.own.toNat < (linkOf b k).peer.toNat)

/-- What the peer of link k must show (R465): its certificate and report, at the lower end its signature too; and the own
root must work. -/
def PeerGood (b : Block) (k : Nat) (p : KeyPeer) : Prop :=
  canKey b = true ∧ certOk b p.cert = true ∧ peerReportOk b p.cert p.report (Config.shake p.offer) p.readmit = true ∧
    (lowerEnd b k = true → Config.xmssVerify (certKey p.cert) (Config.shake p.offer) p.sig = true)

/-- The checks as the model makes them. -/
theorem peerGood_iff : PeerGood b k p ↔
    (canKey b && certOk b p.cert && peerReportOk b p.cert p.report (Config.shake p.offer) p.readmit &&
      (!lowerEnd b k || Config.xmssVerify (certKey p.cert) (Config.shake p.offer) p.sig)) = true := by
  simp only [PeerGood, Bool.and_eq_true, Bool.or_eq_true, Bool.not_eq_true', and_assoc, imp_iff_not_or, Bool.not_eq_true]

/-- The keys of both directions, that of the lower end's transmit direction first (R465). -/
def agreedKeys (b : Block) (k : Nat) (p : KeyPeer) : List Byte × List Byte :=
  let d := draw b 64
  linkKeys (sessionSecret
    (if lowerEnd b k then Config.mlkemDecap d.1 p.share else (Config.mlkemEncap p.share d.1).2) p.transcript)

section
variable (hst : (linkOf b k).st = 6)
include hst

/-- A peer that fails a check fails the link. -/
theorem linkKey_refused (hbad : ¬ PeerGood b k p) : linkKey k p b = failLink (agreeFailed b) k := by
  rw [peerGood_iff] at hbad
  unfold lowerEnd at hbad
  simp only [linkKey, hst, if_true, if_neg hbad]

/-- With the own signatures made, both directions take new keys and the link is UP. -/
theorem linkKey_agreed (hgood : PeerGood b k p) {b1 : Block}
    (hsigned : keySign (draw b 64).2 (lowerEnd b k) (Config.shake p.offer) = some b1) :
    let ks := agreedKeys b k p
    let lower := lowerEnd b k
    linkKey k p b = linkToUp { setLink b1 k
        (rekeyed (linkOf b1 k) (if lower then ks.1 else ks.2) (if lower then ks.2 else ks.1)) with
      house := { b1.house with rekeyed := b1.house.rekeyed ||| (1#32 <<< k) } } k := by
  rw [peerGood_iff] at hgood
  unfold lowerEnd at hgood hsigned
  simp only [linkKey, hst, if_true, if_pos hgood, hsigned]
  rfl

end
end

/-- Settles O32: the agreement's two outcomes. -/
theorem linkKeyAgreement : Obligations.LinkKeyAgreement :=
  fun _ _ _ hup hst => ⟨fun hbad => actUp_eq hup (linkKey_refused hst hbad),
    fun _ hgood hsigned => actUp_eq hup (linkKey_agreed hst hgood hsigned)⟩

end Sys2Proof.Machine
end

section
/-!
Tests and their ports (R453, R495, R501 to R510): the end of a run, lane checkers, the test access port and the
debug port.
-/
namespace Sys2Proof.Machine

section
variable {b : Block}

/-! ### The end of a run (R501 to R507) -/

theorem runOutcome_eq (fails : List BoreFail) (limit : Bool) :
    runOutcome fails.length limit = if limit = true then 2 else if fails = [] then 0 else 1 := by
  simp only [runOutcome, List.length_eq_zero_iff]

/-- The block once a run's records are made and its links look for signal again. -/
def runEnded (b : Block) (r : FtRun) (fails : List BoreFail) : Block :=
  let made := fails.foldl (fun z f => boreFault (boreRecord r.trigger z f) f) b
  (linksOf r.sel.links).foldl runLinkUp
    { made with ft := { made.ft with run := none, st := 0, pkg := 0, trigger := 0, runs := satAdd made.ft.runs 1 } }

theorem boreRunEnd_running {r : FtRun} (hrun : b.ft.run = some r) (fails : List BoreFail) (limit : Bool) :
    let body : List Nat := [r.num, r.trigger, if limit = true then 2 else if fails = [] then 0 else 1, fails.length,
      (runEnded b r fails).ft.recs.length]
    boreRunEnd fails limit b =
      sendEvent (runEnded b r fails) { kind := 10, ctx := 255, body := body.map (BitVec.ofNat 64) } := by
  simp only [boreRunEnd, hrun, runOutcome_eq]
  rfl

/-! ### Lane checkers (R495) -/

section
variable {k j : Nat} (hchecks : checking b k j = true)
include hchecks

theorem laneLocked_checking :
    laneLocked k j b = setLink b k { linkOf b k with locked := (linkOf b k).locked ||| (1#9 <<< j) } :=
  if_pos hchecks

theorem laneUnlocked_checking (hlocked : (linkOf b k).locked.getLsbD j = true) :
    laneUnlocked k j b = setLink b k { linkOf b k with
      locked := (linkOf b k).locked &&& ~~~ (1#9 <<< j), lost := (linkOf b k).lost ||| (1#9 <<< j)
      errs := tput (linkOf b k).errs 0 j (satAdd (tget (linkOf b k).errs 0 j) 16) } := by
  simp only [laneUnlocked, hchecks, hlocked, Bool.and_self, if_true]

end

/-! ### The test access port (R509) -/

/-- The block with an instruction selected. -/
def tapSelected (b : Block) (t : Byte) : Block := { b with ft := { b.ft with tap := t } }

section
variable {code : Byte}

/-- BYPASS, IDCODE, EXTEST and the AC tests are always open. -/
theorem tapCode_open (hopen : code.toNat ∈ [0x00, 0x01, 0x06, 0x07]) : tapCode b code = code := by
  simp only [tapCode, List.contains_iff_mem.mpr hopen, if_true]

/-- The other defined codes are open while no context is confidential. -/
theorem tapCode_guarded (hguarded : code.toNat ∈ [0x02, 0x04, 0x05, 0x20]) :
    tapCode b code = if b.ctxs.any (fun e => e.2.confidential) then 0xFF else code := by
  have hclosed : code.toNat ∉ [0x00, 0x01, 0x06, 0x07] := by
    simp only [List.mem_cons, List.not_mem_nil, or_false] at hguarded ⊢
    omega
  cases hconf : b.ctxs.any fun e => e.2.confidential <;>
    simp only [tapCode, List.contains_iff_mem, if_neg hclosed, hguarded, hconf, Bool.and_eq_true, Bool.not_true,
      Bool.not_false, Bool.false_eq_true, and_false, and_self, if_true, if_false]

theorem tapCode_undefined (hundef : code.toNat ∉ [0x00, 0x01, 0x02, 0x04, 0x05, 0x06, 0x07, 0x20]) :
    tapCode b code = 0xFF := by
  simp only [List.mem_cons, List.not_mem_nil, or_false, not_or] at hundef
  simp [tapCode, hundef]

theorem testAccess_idcode : testAccess 1 b =
    { tapSelected b 1 with egress := b.egress ++ [.scan (leBytes 4 (idcode b).toNat)] } := by
  simp only [testAccess, tapCode_open (b := b) (code := 1) (by decide), if_true]
  rfl

theorem testAccess_selects {t : Byte} (ht : tapCode b code = t) (hother : t ≠ 1) :
    testAccess code b = tapSelected b t := by
  simp only [testAccess, ht, if_neg hother]
  rfl

end

/-! ### The debug port (R510) -/

theorem debugAccess_dead (hdead : debugLive b = false) (d : DebugOp) : debugAccess d b = b := by
  simp only [debugAccess, hdead, Bool.false_eq_true, if_false]

section
variable (hlive : debugLive b = true)
include hlive

theorem debugAccess_regRead (l : Nat) :
    let d := latchLow b (l / 4 * 4)
    debugAccess (.regRead l) b =
      { d with egress := d.egress ++ [.scan (leBytes 4 (ctlRead b (l / 4 * 4)).toNat)] } :=
  if_pos hlive

theorem debugAccess_regWrite (l : Nat) (v : U32) : debugAccess (.regWrite l v) b = regWrite l v b := if_pos hlive

theorem debugAccess_memRead (l n : Nat) : debugAccess (.memRead l n) b =
    { b with egress := b.egress ++ [.scan ((List.range n).map fun j => debugByte b (l + j))] } :=
  if_pos hlive

theorem debugAccess_memWrite (l : Nat) (x : List Byte) : debugAccess (.memWrite l x) b = debugStore b l x := if_pos hlive

theorem debugAccess_halt (u : UnitId) (x : Bool) : debugAccess (.halt u x) b = debugHalt u x b := if_pos hlive

/-- A step of a unit that is held halted. -/
theorem debugAccess_step {u : UnitId} (hheld : heldHalted b u = true) :
    debugAccess (.step u) b = settleAll { b with chip := { b.chip with stepOnce := some u } } :=
  (if_pos hlive).trans (if_pos hheld)

end
end

/-- A command of a part whose rails are on acts in Idle and above. -/
theorem actPowered_eq {s : State} (hup : Up s) {f : Block → Block} {d : Block} (hd : f s.blk = d) :
    actPowered f s = .next (became s d) := by
  have hrails : s.blk.pw.phase ≠ .standby := by
    intro hoff
    rw [Up, hoff] at hup
    cases hup
  rw [actPowered_next _ _ hrails, hd]

section
variable {s : State} (hup : Up s) {code : Byte}
include hup

/-- An instruction that is open and shifts nothing out. -/
theorem exec_testAccessPort_open (hopen : code.toNat ∈ [0x00, 0x06, 0x07]) :
    exec (.testAccessPort code) s = .next (became s (tapSelected s.blk code)) := by
  simp only [List.mem_cons, List.not_mem_nil, or_false] at hopen
  have hcode : code.toNat ∈ [0x00, 0x01, 0x06, 0x07] := by
    simp only [List.mem_cons, List.not_mem_nil, or_false]
    omega
  have hother : code ≠ 1 := by
    rintro rfl
    exact absurd hopen (by decide)
  exact actPowered_eq hup (testAccess_selects (tapCode_open hcode) hother)

theorem exec_testAccessPort_idcode : exec (.testAccessPort 1) s = .next (became s
    { tapSelected s.blk 1 with egress := s.blk.egress ++ [.scan (leBytes 4 (idcode s.blk).toNat)] }) :=
  actPowered_eq hup testAccess_idcode

theorem exec_testAccessPort_guarded (hguarded : code.toNat ∈ [0x02, 0x04, 0x05, 0x20]) :
    exec (.testAccessPort code) s = .next (became s
      (tapSelected s.blk (if s.blk.ctxs.any (fun e => e.2.confidential) then 0xFF else code))) := by
  refine actPowered_eq hup (testAccess_selects (tapCode_guarded hguarded) ?_)
  split
  · decide
  · rintro rfl
    exact absurd hguarded (by decide)

theorem exec_testAccessPort_undefined
    (hundef : code.toNat ∉ [0x00, 0x01, 0x02, 0x04, 0x05, 0x06, 0x07, 0x20]) :
    exec (.testAccessPort code) s = .next (became s (tapSelected s.blk 0xFF)) :=
  actPowered_eq hup (testAccess_selects (tapCode_undefined hundef) (by decide))

end

/-- Settles O52: the end of a run, the lane checkers, each kind of instruction code, and the debug port live or not. -/
theorem testPortsAndRuns : Obligations.TestPortsAndRuns := by
  intro s hup
  refine ⟨fun fails limit r hrun => actUp_eq hup (boreRunEnd_running hrun fails limit),
    fun k j hchecks => ⟨actUp_eq hup (laneLocked_checking hchecks),
      fun hlocked => actUp_eq hup (laneUnlocked_checking hchecks hlocked)⟩,
    fun code => ⟨exec_testAccessPort_open hup, ?_, exec_testAccessPort_guarded hup,
      exec_testAccessPort_undefined hup⟩,
    fun hdead d => actUp_eq hup (debugAccess_dead hdead d),
    fun hlive => ⟨fun l => actUp_eq hup (debugAccess_regRead hlive l),
      fun l v => actUp_eq hup (debugAccess_regWrite hlive l v), fun l n => actUp_eq hup (debugAccess_memRead hlive l n),
      fun l x => actUp_eq hup (debugAccess_memWrite hlive l x), fun u x => actUp_eq hup (debugAccess_halt hlive u x),
      fun u hheld => actUp_eq hup (debugAccess_step hlive hheld)⟩,
    actUp_next _ s hup⟩
  rintro rfl
  exact exec_testAccessPort_idcode hup

end Sys2Proof.Machine
end

section
/-!
Starts and resets (R479 to R481, R485, R486, R488): where a start stops, what it leaves once its steps have run, and
what a context reset leaves of its context.
-/
namespace Sys2Proof.Machine

/-- A command that acts in every power state. -/
theorem act_eq {s : State} {f : Block → Block} {d : Block} (hd : f s.blk = d) : act f s = .next (became s d) := by
  rw [act_next, hd]

/-! ### Starts (R479 to R481) -/

section
variable {b : Block} {io : ItinIn}

/-- The block with which a cold start begins, its outcomes those of no step. -/
def coldBegun (b : Block) : Block :=
  beginItin (setPw (bare b) fun p => { p with start := 0, starts := p.starts + 1, retiredIn := [] })

section
variable (hphase : b.pw.phase = .starting)
include hphase

theorem coldStart_railFails (hrails : io.railsOk = false) :
    coldStart io b = stopStart (outcome 0 4 0 1 0 (coldBegun b)) := by
  simp only [coldStart, hphase, hrails, if_true, Bool.not_false]
  rfl

variable (hrails : io.railsOk = true)
include hrails

theorem coldStart_referenceFails (href : io.refOk = false) :
    coldStart io b = stopStart (outcome 1 4 0 1 0 (outcome 0 1 0 1 0 (coldBegun b))) := by
  simp only [coldStart, hphase, hrails, href, if_true, Bool.not_true, Bool.not_false, Bool.false_eq_true, if_false]
  rfl

theorem coldStart_goesOn (href : io.refOk = true) :
    coldStart io b = fromVerify io (nvRead io (outcome 1 1 0 1 0 (outcome 0 1 0 1 0 (coldBegun b)))) := by
  simp only [coldStart, hphase, hrails, href, if_true, Bool.not_true, Bool.false_eq_true, if_false]
  rfl

end

/-- A module reset goes on from step 2. -/
theorem moduleReset_begun {retain : Bool} (hphase : b.pw.phase = .resetting retain) :
    moduleReset io b = fromVerify io (nvRead io (beginItin (setPw (resetBlock b retain) fun p =>
      { p with phase := .starting, start := if retain then 2 else 1, starts := p.starts + 1 }))) := by
  simp only [moduleReset, hphase]
  rfl

/-! ### From the verification of the image on -/

/-- Step 8 leaves the module up with its time recorded, whatever the root can do. -/
theorem keysStep_up (b : Block) :
    (keysStep io b).pw.phase = .up ∧ (keysStep io b).pw.itinTime = io.ms := ⟨rfl, rfl⟩

/-- The keys are ready just where the root makes them. -/
theorem keysStep_keyReady (b : Block) : (keysStep io b).vy.keyReady = canKey (keysStep io b) := by
  cases hroot : b.vy.rngFault <;> simp [keysStep, canKey, hroot, outcome, setPw, makeFwKey, draw]

/-- A verified image lets steps 4 to 8 run. -/
theorem fromVerify_verified {d : Block} (hok : imageRefusal d d.pw.flash = none) :
    fromVerify io d = lateSteps io (outcome 3 1 0 1 0 (acceptImage d d.pw.flash)) := by
  simp only [fromVerify, fwVerify, hok, if_true]

/-- One that is not verified stops the start, where network recovery is not allowed. -/
theorem fromVerify_refused {d : Block} (hbad : imageRefusal d d.pw.flash ≠ none) (hlocal : d.pw.recovery = false) :
    fromVerify io d = stopStart (outcome 3 4 0 1 0 d) := by
  obtain ⟨e, he⟩ := Option.ne_none_iff_exists'.mp hbad
  simp only [fromVerify, fwVerify, he, hlocal, Bool.false_eq_true, if_false]

end

/-! ### Context resets (R485, R488) -/

section
variable (b : Block)

theorem dropCache_units (c : Nat) : (dropCache b c).units = b.units := by
  refine foldl_keeps (g := Block.units) (fun d k => ?_) _ b
  exact foldl_keeps (g := Block.units) (fun y e => wrList_units y _ _) _ d

theorem dropUnits_units (c : Nat) : (dropUnits b c).units = b.units := by
  refine foldl_keeps (g := Block.units) (fun d k => ?_) _ b
  rw [setRck_units, setDrk_units]

theorem unitKey_div (c : Nat) (u : UnitId) : unitKey c u / 65536 = c := by
  have hunit : sysUnit u < 65536 := by cases u <;> simp only [sysUnit] <;> omega
  unfold unitKey
  omega

/-- What an entry's key decides of its new value, a lookup finds. -/
theorem tlook_map {α : Type} (g : Nat → α → α) (t : Tbl α) (k : Nat) :
    tlook (t.map fun e => (e.1, g e.1 e.2)) k = (tlook t k).map (g k) := by
  induction t with
  | nil => rfl
  | cons e t ih =>
    by_cases hk : e.1 = k
    · subst hk
      simp [tlook]
    · simpa [tlook, hk] using ih

/-- The initial image of a unit, its event counters as they were (R449). -/
def clearedImg (i : UnitImg) : UnitImg := { ({} : UnitImg) with cnt := i.cnt }

/-- The units of a cleared context, and those of the others. -/
def clearedUnit (c k : Nat) (i : UnitImg) : UnitImg := if k / 65536 = c then clearedImg i else i

theorem clearUnits_units (c : Nat) : (clearUnits b c).units = b.units.map fun e => (e.1, clearedUnit c e.1 e.2) := by
  refine List.map_congr_left fun e _ => ?_
  unfold clearedUnit
  split <;> rfl

theorem img_clearUnits (c : Nat) (u : UnitId) : img (clearUnits b c) c u = clearedImg (img b c u) := by
  rw [img, tget, clearUnits_units, tlook_map (clearedUnit c), img, tget]
  have hown (i : UnitImg) : clearedUnit c (unitKey c u) i = clearedImg i := if_pos (unitKey_div c u)
  cases tlook b.units (unitKey c u) with
  | none => rfl
  | some i => exact hown i

section
variable {b} {c : Nat} (hctx : resident b c = true)
include hctx

/-- A reset of a resident context ends by clearing its units and what its step has recorded. -/
theorem resetCtx_resident : ∃ d b2, resetCtx b c = setCtx b2 c (clearStep (ctxOf b2 c)) ∧
    b2.units = (clearUnits d c).units := by
  obtain ⟨x, hx⟩ := Option.isSome_iff_exists.mp hctx
  refine ⟨abandonCtx (haltCtx b c .reset) c, _, by simp only [resetCtx, hx]; rfl, ?_⟩
  rw [dropUnits_units, dropCache_units]
  rfl

theorem registers_resetCtx (u : UnitId) (r : BitVec 5) :
    sreg (img (resetCtx b c) c u) r = 0 ∧ freg (img (resetCtx b c) c u) r = 0 := by
  obtain ⟨d, b2, hreset, hunits⟩ := resetCtx_resident hctx
  have himg : img (resetCtx b c) c u = clearedImg (img d c u) := by
    rw [hreset, ← img_clearUnits]
    simp only [img, setCtx, hunits]
  rw [himg]
  exact ⟨sreg_empty r, freg_empty r⟩

theorem ctxOf_resetCtx : (ctxOf (resetCtx b c) c).seedPend = [] ∧ (ctxOf (resetCtx b c) c).stepClamps = 0 := by
  obtain ⟨d, b2, hreset, -⟩ := resetCtx_resident hctx
  rw [hreset, ctxOf_setCtx_self]
  exact ⟨rfl, rfl⟩

end
end

/-- The context that RESET named is reset. -/
theorem contextReset_named {b : Block} {c : Nat} (hnamed : b.pw.resetCtx = some c) :
    contextReset c b = resetCtx (setPw b fun p => { p with resetCtx := none }) c :=
  if_pos hnamed

/-- Settles O51: where a start stops or goes on, and what it and a context reset leave. -/
theorem startsAndResets : Obligations.StartsAndResets := by
  intro s io b cold
  refine ⟨fun hphase => ⟨fun hrails => act_eq (coldStart_railFails hphase hrails),
      fun hrails href => act_eq (coldStart_referenceFails hphase hrails href),
      fun hrails href => act_eq (coldStart_goesOn hphase hrails href)⟩,
    fun retain hphase => act_eq (moduleReset_begun hphase),
    fun hphase hrecovers hen => act_eq (if_pos ⟨hphase, hrecovers, hen⟩), fun d hok => ?_, fun d hbad hlocal => ?_,
    fun c hup hnamed hctx => ?_⟩
  · rw [fromVerify_verified hok]
    exact ⟨(keysStep_up _).1, (keysStep_up _).2, keysStep_keyReady _⟩
  · rw [fromVerify_refused hbad hlocal]
    exact ⟨rfl, rfl⟩
  · have hctx : resident (setPw b fun p => { p with resetCtx := none }) c.val = true := hctx
    exact ⟨actUp_eq hup (contextReset_named hnamed), fun u r => registers_resetCtx hctx u r, ctxOf_resetCtx hctx⟩

end Sys2Proof.Machine
end

section
/-!
Power inputs and temperature (R160, R472 to R477, R489, R520): what each signal of the board and each window and
report of the controller does.
-/
namespace Sys2Proof.Machine

/-! ### PWR_EN and RST_L (R474 to R476) -/

section
variable {b : Block}

theorem inputGood_iff (p : Power) : inputGood p = true ↔ 4000 ≤ p.vin.toNat := decide_eq_true_iff

theorem pwrEnRise_starts (hoff : b.pw.phase = .standby) (hgood : 4000 ≤ b.pw.vin.toNat) :
    pwrEnRise b = setPw b fun p => { p with pwrEn := true, phase := .starting } := by
  have hstarts : b.pw.phase = .standby ∧ inputGood b.pw = true := ⟨hoff, (inputGood_iff b.pw).mpr hgood⟩
  simp only [pwrEnRise, setPw, if_pos hstarts]

theorem pwrEnFall_on (hon : b.pw.phase ≠ .standby) :
    pwrEnFall b = orderlyStop (setPw b fun p => { p with pwrEn := false }) 1 :=
  if_neg hon

theorem pwrEnFall_off (hoff : b.pw.phase = .standby) : pwrEnFall b = setPw b fun p => { p with pwrEn := false } :=
  if_pos hoff

theorem rstAssert_up (hup : aboveStandby b.pw.phase = true) (hen : b.pw.pwrEn = true) :
    rstAssert b = setPw b fun p => { p with phase := .resetting p.pinRetain } := by
  simp only [rstAssert, hup, hen, Bool.and_self, if_true]

theorem inputRecovery_starts (hoff : b.pw.phase = .standby) (hen : b.pw.pwrEn = true) (hgood : 4000 ≤ b.pw.vin.toNat) :
    inputRecovery b = setPw b fun p => { p with phase := .starting } :=
  if_pos ⟨hoff, hen, (inputGood_iff b.pw).mpr hgood⟩

end

/-! ### The input (R472, R473, R489) -/

/-- What two samples that agree alert: below 40 V, above 59.5 V (R472). -/
def inputBad (v last : Nat) : BitVec 6 :=
  (if v < 4000 ∧ last < 4000 then 1 else 0) ||| (if 5950 < v ∧ 5950 < last then 2 else 0)

/-- The alerts of the input, and no other, are those bits. -/
theorem heldAlerts_input (p : Power) : heldAlerts p &&& 3 = inputBad p.vin.toNat p.lastVin := by
  unfold heldAlerts inputBad
  split_ifs <;> rfl

/-- A module in Standby, its PWR_EN high, that the sample brings to the threshold starts, unless a power-loss sequence
left it there (R475, R489, R520). -/
def InputStarts (p : Power) (v : U16) : Prop :=
  p.phase = .standby ∧ p.pwrEn = true ∧ p.vin.toNat < 4000 ∧ 4000 ≤ v.toNat ∧ p.stop ≠ 2 ∧ p.stop ≠ 3

/-- The controller's registers with the sample taken. -/
def withSample (p : Power) (v : U16) : Power := { p with vin := v, lastVin := p.vin.toNat }

theorem inputStarts_iff (p : Power) (v : U16) : InputStarts p v ↔ p.phase = .standby ∧ p.pwrEn = true ∧
    inputGood p = false ∧ inputGood (withSample p v) = true ∧ p.stop ≠ 2 ∧ p.stop ≠ 3 := by
  have hlow : inputGood p = false ↔ p.vin.toNat < 4000 := by simp [inputGood]
  rw [hlow, inputGood_iff]
  rfl

/-- The controller once it has acted on a sample. -/
def sampled (p : Power) (v : U16) : Power :=
  let q := withSample p v
  let go := p.phase = .standby ∧ p.pwrEn = true ∧ inputGood p = false ∧ inputGood q = true ∧ p.stop ≠ 2 ∧ p.stop ≠ 3
  { q with alert := q.alert ||| (heldAlerts q &&& 3), phase := if go then .starting else q.phase }

theorem inputSample_eq (v : U16) (b : Block) : inputSample v b = setPw b fun p => sampled p v := rfl

theorem sampled_alert (p : Power) (v : U16) : (sampled p v).alert = p.alert ||| inputBad v.toNat p.vin.toNat :=
  congrArg (p.alert ||| ·) (heldAlerts_input (withSample p v))

theorem sampled_starts {p : Power} {v : U16} (hstarts : InputStarts p v) : (sampled p v).phase = .starting :=
  if_pos ((inputStarts_iff p v).mp hstarts)

theorem sampled_stays {p : Power} {v : U16} (hstays : ¬ InputStarts p v) : (sampled p v).phase = p.phase :=
  if_neg fun hgo => hstays ((inputStarts_iff p v).mpr hgo)

/-- The stop that a lost reference brings leaves its own alert alone (R478). -/
theorem referenceLost_alert (b : Block) : (referenceLost b).pw.alert = 32 :=
  show (0#6 ||| 32#6) = 32#6 by decide

/-! ### The cap, and temperature (R473, R477) -/

section
variable {b : Block} {c : Nat} (hrun : b.running = some c)
include hrun

theorem thermalPersist_hot (hhot : b.pw.hot ≠ 0) : thermalPersist b = { b with draining := true } := by
  simp only [thermalPersist, hrun, if_neg hhot]

/-- A drain ends at once where no issued instruction of the context waits (R160). -/
theorem finishDrain_idle (hdrain : b.draining = true) (hwait : waiters b = []) :
    finishDrain b = haltCtx (abandonWaits b c) c .drained := by
  simp only [finishDrain, hrun, hdrain, hwait, List.any_nil, Bool.not_false, Bool.and_self, if_true]

end

section
variable (b : Block)

theorem haltCtx_chip (c : Nat) (st : CtxSt) : (haltCtx b c st).chip = b.chip := by
  unfold haltCtx
  split
  · rfl
  · split <;> rfl

theorem gateWake_chip (u : UnitId) : (gateWake b u).chip = b.chip := by
  unfold gateWake
  split
  · dsimp only
    split <;> rfl
  · rfl

theorem abandonWaits_chip (c : Nat) : (abandonWaits b c).chip = b.chip := by
  change (ungate b c).chip = b.chip
  unfold ungate
  split
  · refine foldl_keeps (g := Block.chip) (fun z t => ?_) _ b
    split
    · exact gateWake_chip z _
    · rfl
  · rfl

end

/-- Where no unit is stepped, no step ends. -/
theorem endStep_none {b0 b : Block} (hnone : b.chip.stepOnce = none) : endStep b0 b = b := by
  simp only [endStep, hnone]

/-- What follows the command that begins a drain, where no issued instruction of the context waits: its save. -/
theorem after_drain {b0 b : Block} {c : Nat} (hrun : b.running = some c) (hdrain : b.draining = true)
    (hwait : waiters b = []) (hstep : b.chip.stepOnce = none) :
    after b0 b = schedule (haltCtx (abandonWaits b c) c .drained) := by
  have hkept : (haltCtx (abandonWaits b c) c .drained).chip.stepOnce = none := by
    rw [haltCtx_chip, abandonWaits_chip, hstep]
  rw [after, settleAll_none b hwait, finishDrain_idle hrun hdrain hwait, endStep_none hkept]

/-- The contexts of a package that trips: none goes on (R477). -/
def noneRuns (t : Tbl Ctx) : Tbl Ctx :=
  t.map fun e => (e.1, if e.2.st = .runnable then { e.2 with st := .drained } else e.2)

/-- The stacks fall into self-refresh. -/
def stacksRest (b : Block) : Block :=
  (List.range 12).foldl (fun z k =>
    if z.geo.stackMask.getLsbD k then setMc z k { mcOf z k with selfRefresh := true } else z) b

theorem stacksRest_keeps (b : Block) : (stacksRest b).ctxs = b.ctxs ∧ (stacksRest b).pw = b.pw := by
  have hpart {β : Type} (g : Block → β) (hg : ∀ z k m, g (setMc z k m) = g z) : g (stacksRest b) = g b := by
    refine foldl_keeps (fun z k => ?_) _ b
    split
    · exact hg z k _
    · rfl
  exact ⟨hpart Block.ctxs fun z k m => setMc_ctxs z k m, hpart Block.pw fun z k m => setMc_pw z k m⟩

/-- At 115 degrees the running context is lost and no other goes on. -/
theorem packageTrip_running {b : Block} {c : Nat} (hrun : b.running = some c) :
    ∃ z, z.ctxs = noneRuns (destroyCtx b c).ctxs ∧ z.pw = (destroyCtx b c).pw ∧
      packageTrip b = setPw z fun p => { p with
        regionPll := [], stop := 4, therm := satAdd p.therm 1, faultL := true, trip := true
        alert := p.alert ||| 8 } := by
  simp only [packageTrip, hrun]
  generalize destroyCtx b c = l
  obtain ⟨hctxs, hpw⟩ := stacksRest_keeps { l with ctxs := noneRuns l.ctxs }
  exact ⟨_, hctxs, hpw, rfl⟩

/-- Settles O50: each signal, sample, window and report, and what a loss of power leaves (R489). -/
theorem powerInputsAndTemperature : Obligations.PowerInputsAndTemperature := by
  refine ⟨fun s => ?_, fun s hup => ?_⟩
  · intro b p nowPw bad off root
    refine ⟨fun hoff hgood => act_eq (pwrEnRise_starts hoff hgood), fun hon => act_eq (pwrEnFall_on hon),
      fun hoff => act_eq (pwrEnFall_off hoff), fun hup hen => act_eq (rstAssert_up hup hen), fun v => ?_,
      ⟨undervoltage b, rfl, ⟨rfl, rfl, rfl, rfl, rfl, rfl⟩, ⟨rfl, rfl⟩, rfl, rfl⟩,
      ⟨overvoltage b, rfl, ⟨rfl, rfl, rfl, rfl, rfl, rfl⟩, ⟨rfl, rfl⟩, rfl, rfl⟩,
      fun hon => ⟨referenceLost b, actPowered_next _ s hon, ⟨rfl, rfl, rfl, rfl, rfl, rfl⟩, referenceLost_alert b⟩,
      fun hoff hen hgood => act_eq (inputRecovery_starts hoff hen hgood)⟩
    exact ⟨sampled p v, act_eq (inputSample_eq v b), rfl, rfl, by rw [sampled_alert]; rfl, sampled_starts, sampled_stays⟩
  · intro b p
    refine ⟨fun w => actUp_next _ s hup, fun c hrun hhot => ⟨actUp_eq hup (thermalPersist_hot hrun hhot),
      fun hwait hstep => ?_⟩, actUp_next _ s hup, fun c hrun => ?_⟩
    · have hsaved := after_drain (b0 := b) (b := { b with draining := true }) hrun rfl hwait hstep
      exact (actUp_eq hup (thermalPersist_hot hrun hhot)).trans (by rw [became, hsaved])
    · obtain ⟨z, hctxs, hpw, htrip⟩ := packageTrip_running hrun
      exact ⟨_, actUp_eq hup htrip, hctxs, rfl, rfl, rfl, congrArg (fun q : Power => satAdd q.therm 1) hpw⟩

end Sys2Proof.Machine
end
